-- ==== Sys2Proof/Word.lean ====
section
/-! DEFINITION. The word types and the keyed table every block's records are held in. -/

namespace Sys2Proof

/-- One byte of host memory, of store memory, or of a message. -/
abbrev Byte := BitVec 8

/-- A 32-bit count or period index, counted modulo 2^32 (00 Units and quantities). -/
abbrev Word32 := BitVec 32

/-- A 64-bit host address. -/
abbrev Word64 := BitVec 64

/-- Records kept by number: a list of (number, record) pairs, numbers strictly rising, none equal to the record an
unlisted number holds. `Machine/Table.lean` reads and writes it. -/
abbrev Tab (α : Type) := List (Nat × α)

end Sys2Proof
end

