-- ==== Sys2Proof/Syntax.lean ====
section
/-! DEFINITION. The commands: one constructor of `Instr` per row of spec/opcode_table.json. A request row carries the
16-bit tag of its header and the arguments of R186 (a structure of its own where it has several). A number is held as
given, in range or not; `WellFormed.lean` bounds it by its item's width. -/

namespace Sys2Proof

/-- NOTICE_MODE (R181). -/
structure NoticeModeArgs where
  scope : Nat
  enables : Nat
  first : Nat
  second : Nat
  deriving DecidableEq, Repr

/-- NOTICE_TAKE (R182). -/
structure NoticeTakeArgs where
  scope : Nat
  mask : Nat
  deriving DecidableEq, Repr

/-- CLIP_MAKE (R8). -/
structure ClipMakeArgs where
  cookie : Nat
  volume : Nat
  rate : Nat
  growing : Bool
  deriving DecidableEq, Repr

/-- CLIP_AMEND (R9). -/
structure ClipAmendArgs where
  clip : Nat
  growing : Bool
  length : Nat
  cookie : Nat
  deriving DecidableEq, Repr

/-- GROUP_FIX (R11): p present frames of size S from base B. -/
structure GroupFixArgs where
  clip : Nat
  present : Nat
  group : Nat
  size : Nat
  base : Nat
  deriving DecidableEq, Repr

/-- GROUP_LIST (R13). -/
structure GroupListArgs where
  clip : Nat
  group : Nat
  count : Nat
  address : Nat
  deriving DecidableEq, Repr

/-- GROUP_DROP (R15). -/
structure GroupDropArgs where
  clip : Nat
  group : Nat
  deriving DecidableEq, Repr

/-- CLIP_RETIRE (R20, R21). -/
structure ClipRetireArgs where
  clip : Nat
  withdraw : Bool
  deriving DecidableEq, Repr

/-- FRAME_ASK (R24). -/
structure FrameAskArgs where
  clip : Nat
  view : Nat
  frame : Nat
  deriving DecidableEq, Repr

/-- The seven shape fields of a view (R26). -/
structure Shape where
  lead : Nat
  lineBytes : Nat
  firstLine : Nat
  lineCount : Nat
  lineStep : Nat
  colOffset : Nat
  colBytes : Nat
  deriving DecidableEq, Repr

/-- VIEW_DEFINE (R28, R29). -/
structure ViewDefineArgs where
  view : Nat
  clear : Bool
  shape : Shape
  deriving DecidableEq, Repr

/-- CHAN_OPEN (R48). -/
structure ChanOpenArgs where
  channel : Nat
  defaults : Bool
  primeDepth : Nat
  sustainDepth : Nat
  slotCount : Nat
  primePeriods : Nat
  slotBytes : Nat
  leadMargin : Nat
  ringBase : Nat
  recordArea : Nat
  deriving DecidableEq, Repr

/-- CHAN_BIND (R49); a rate override of 255 is none. -/
structure ChanBindArgs where
  channel : Nat
  view : Nat
  loop : Bool
  follow : Bool
  alignDefault : Bool
  rateOverride : Nat
  clip : Nat
  inPoint : Nat
  lastFrame : Nat
  deriving DecidableEq, Repr

/-- CHAN_OPTIONS (R51). -/
structure ChanOptionsArgs where
  channel : Nat
  loop : Bool
  follow : Bool
  alignDefault : Bool
  inPoint : Nat
  lastFrame : Nat
  leadMargin : Nat
  deriving DecidableEq, Repr

/-- CHAN_DEPTH (R52). -/
structure ChanDepthArgs where
  channel : Nat
  primeDepth : Nat
  sustainDepth : Nat
  primePeriods : Nat
  deriving DecidableEq, Repr

/-- CHAN_CUE and CHAN_JUMP (R53, R62). -/
structure PositionArgs where
  channel : Nat
  position : Int
  deriving DecidableEq, Repr

/-- CHAN_START (R55): form NOW 0, AT_TIME 1, AT_REFERENCE 2, DEFAULT 3. -/
structure ChanStartArgs where
  channel : Nat
  form : Nat
  time : Nat
  deriving DecidableEq, Repr

/-- CHAN_SPEED (R59); the apply period is optional. -/
structure ChanSpeedArgs where
  channel : Nat
  speed : Int
  apply : Option Nat
  deriving DecidableEq, Repr

/-- CHAN_ASK and STORE_ASK (R188): a number and a page. -/
structure PageAskArgs where
  number : Nat
  page : Nat
  deriving DecidableEq, Repr

/-- SLOT_RETURN (R102). -/
structure SlotReturnArgs where
  channel : Nat
  count : Nat
  deriving DecidableEq, Repr

/-- PIN_SET (R119). -/
structure PinSetArgs where
  view : Nat
  clip : Nat
  first : Nat
  count : Nat
  deriving DecidableEq, Repr

/-- VOLUME_DEFINE (R157): `members` are the first W items of the list, none when W is above 16. -/
structure VolumeDefineArgs where
  volume : Nat
  width : Nat
  parity : Bool
  unit : Nat
  members : List Nat
  base : Nat
  memberLength : Nat
  deriving DecidableEq, Repr

/-- A request of a known kind, without its tag (R186). -/
inductive Request where
  | noticeMode (a : NoticeModeArgs)
  | noticeTake (a : NoticeTakeArgs)
  | serviceClear
  | clipMake (a : ClipMakeArgs)
  | clipAmend (a : ClipAmendArgs)
  | groupFix (a : GroupFixArgs)
  | groupList (a : GroupListArgs)
  | groupDrop (a : GroupDropArgs)
  | clipRetire (a : ClipRetireArgs)
  | clipAsk (clip : Nat)
  | frameAsk (a : FrameAskArgs)
  | viewDefine (a : ViewDefineArgs)
  | chanOpen (a : ChanOpenArgs)
  | chanBind (a : ChanBindArgs)
  | chanOptions (a : ChanOptionsArgs)
  | chanDepth (a : ChanDepthArgs)
  | chanCue (a : PositionArgs)
  | chanStart (a : ChanStartArgs)
  | chanHold (channel : Nat)
  | chanSpeed (a : ChanSpeedArgs)
  | chanJump (a : PositionArgs)
  | chanClose (channel : Nat)
  | chanAsk (a : PageAskArgs)
  | slotReturn (a : SlotReturnArgs)
  | pinSet (a : PinSetArgs)
  | pinDrop (pin : Nat)
  | storeAsk (a : PageAskArgs)
  | volumeDefine (a : VolumeDefineArgs)
  | volumeDissolve (volume : Nat)
  | memberHold (member : Nat)
  | memberRelease (member : Nat)
  | memberReturn (member : Nat)
  | memberAsk (member : Nat)
  | calibrate (period : Nat)
  | timeAsk
  deriving DecidableEq, Repr

/-- The kind code of a request (R186). -/
def Request.kind : Request → Nat
  | .noticeMode _ => 1
  | .noticeTake _ => 2
  | .serviceClear => 3
  | .clipMake _ => 16
  | .clipAmend _ => 17
  | .groupFix _ => 18
  | .groupList _ => 19
  | .groupDrop _ => 20
  | .clipRetire _ => 21
  | .clipAsk _ => 22
  | .frameAsk _ => 23
  | .viewDefine _ => 32
  | .chanOpen _ => 48
  | .chanBind _ => 49
  | .chanOptions _ => 50
  | .chanDepth _ => 51
  | .chanCue _ => 52
  | .chanStart _ => 53
  | .chanHold _ => 54
  | .chanSpeed _ => 55
  | .chanJump _ => 56
  | .chanClose _ => 57
  | .chanAsk _ => 58
  | .slotReturn _ => 64
  | .pinSet _ => 80
  | .pinDrop _ => 81
  | .storeAsk _ => 82
  | .volumeDefine _ => 96
  | .volumeDissolve _ => 97
  | .memberHold _ => 98
  | .memberRelease _ => 99
  | .memberReturn _ => 100
  | .memberAsk _ => 101
  | .calibrate _ => 112
  | .timeAsk => 113

/-- What the read of a request entry has put in hand (R174): a request of a known kind, one of an unknown kind, or one
whose read failed. -/
inductive InHand where
  | request (tag : Nat) (r : Request)
  | unknown (tag kind : Nat)
  | failed
  deriving DecidableEq, Repr

/-- A DONE message as it reaches the link (R142). The two checks are outside the model (log 24): the sender says whether
each passes. -/
structure DoneMsg where
  headerGood : Bool
  tag : Nat
  ok : Bool
  dataGood : Bool
  data : List Byte
  deriving DecidableEq, Repr

/-- The commands, one constructor per row of spec/opcode_table.json. -/
inductive Instr where
  /-- RESET_N held low, or a PCIe link reset (R184). -/
  | powerOnReset
  /-- A host write into the register window: byte offset, width in bytes, value (R170, R190). -/
  | portWordWrite (offset width value : Nat)
  | reqTailWrite (value : Nat)
  | ansHeadWrite (value : Nat)
  | ringEnableOn
  | ringEnableOff
  /-- The read of a request entry ends: the 64 bytes read, or none when the endpoint reports it failed (R174). -/
  | requestReadDone (entry : Option (List Byte))
  | requestTake
  /-- The taking of a request of unknown kind, or of one whose read failed (R175). -/
  | badKind (tag kind : Nat) (readFailed : Bool)
  | noticeMode (tag : Nat) (a : NoticeModeArgs)
  | noticeTake (tag : Nat) (a : NoticeTakeArgs)
  | serviceClear (tag : Nat)
  | clipMake (tag : Nat) (a : ClipMakeArgs)
  | clipAmend (tag : Nat) (a : ClipAmendArgs)
  | groupFix (tag : Nat) (a : GroupFixArgs)
  | groupList (tag : Nat) (a : GroupListArgs)
  /-- The fetch of a GROUP_LIST ends: the bytes read, or none when the endpoint reports it failed (R14). -/
  | groupListFetchEnd (list : Option (List Byte))
  | groupDrop (tag : Nat) (a : GroupDropArgs)
  | clipRetire (tag : Nat) (a : ClipRetireArgs)
  | clipAsk (tag : Nat) (clip : Nat)
  | frameAsk (tag : Nat) (a : FrameAskArgs)
  | viewDefine (tag : Nat) (a : ViewDefineArgs)
  | chanOpen (tag : Nat) (a : ChanOpenArgs)
  | chanBind (tag : Nat) (a : ChanBindArgs)
  | chanOptions (tag : Nat) (a : ChanOptionsArgs)
  | chanDepth (tag : Nat) (a : ChanDepthArgs)
  | chanCue (tag : Nat) (a : PositionArgs)
  | chanStart (tag : Nat) (a : ChanStartArgs)
  | chanHold (tag : Nat) (channel : Nat)
  | chanSpeed (tag : Nat) (a : ChanSpeedArgs)
  | chanJump (tag : Nat) (a : PositionArgs)
  | chanClose (tag : Nat) (channel : Nat)
  | chanAsk (tag : Nat) (a : PageAskArgs)
  | cueExpiry (channel : Nat)
  | startTimeReached (channel : Nat)
  | startWaitLimit (channel : Nat)
  | dueTime (channel : Nat)
  | slotReturn (tag : Nat) (a : SlotReturnArgs)
  | transferEnd (channel : Nat)
  | pinSet (tag : Nat) (a : PinSetArgs)
  | pinDrop (tag : Nat) (pin : Nat)
  | storeAsk (tag : Nat) (a : PageAskArgs)
  | doneReceived (link : Nat) (m : DoneMsg)
  | tagExpiry (link readTag : Nat)
  | linkDown (link : Nat)
  | linkUp (link : Nat)
  | resetDone (link : Nat)
  | returnExpiry (link : Nat)
  | volumeDefine (tag : Nat) (a : VolumeDefineArgs)
  | volumeDissolve (tag : Nat) (volume : Nat)
  | memberHold (tag : Nat) (member : Nat)
  | memberRelease (tag : Nat) (member : Nat)
  | memberReturn (tag : Nat) (member : Nat)
  | memberAsk (tag : Nat) (member : Nat)
  /-- A rising edge of REF_IN, held high for so many oscillator cycles (R191). -/
  | refPulse (highCycles : Nat)
  | calibrate (tag : Nat) (period : Nat)
  | calLimit
  | refLostTimeout
  | timeAsk (tag : Nat)
  | localCycle
  deriving DecidableEq, Repr

end Sys2Proof
end

