-- ==== Sys2Proof/Decode.lean ====
section
/-! DEFINITION. The formats of chapter 11: little-endian packing (R185), the 64-byte request (R186) decoded and encoded,
the 16-byte list entry (R189), and `decodeTableWord` (the table gives no row any bits). -/

namespace Sys2Proof

/-- The little-endian bytes of a number in so many bytes (R185). -/
def leBytes : Nat → Nat → List Byte
  | 0, _ => []
  | w + 1, v => BitVec.ofNat 8 v :: leBytes w (v / 256)

/-- The number little-endian bytes stand for (R185). -/
def leNat : List Byte → Nat
  | [] => 0
  | b :: bs => b.toNat + 256 * leNat bs

/-- Two's complement of a signed value in so many bytes (R185). -/
def toUnsigned (width : Nat) (v : Int) : Nat := (v % (256 ^ width : Nat)).toNat

/-- The signed value a two's complement number of so many bytes stands for (R185). -/
def toSigned (width v : Nat) : Int := if 2 * v < 256 ^ width then v else (v : Int) - (256 ^ width : Nat)

/-- The lowest offset at or after `off` that is a multiple of the item's width (R185). -/
def alignUp (off width : Nat) : Nat := (off + width - 1) / width * width

/-- The bytes of items (width, value) from byte `off` on, gaps written 0 (R185). -/
def packFrom (off : Nat) : List (Nat × Nat) → List Byte
  | [] => []
  | (w, v) :: rest =>
    List.replicate (alignUp off w - off) 0 ++ leBytes w v ++ packFrom (alignUp off w + w) rest

/-- The values of items of the given widths, packed from byte `off` of a record (R185). -/
def unpackFrom (off : Nat) (bytes : List Byte) : List Nat → List Nat
  | [] => []
  | w :: ws =>
    leNat ((bytes.drop (alignUp off w)).take w) :: unpackFrom (alignUp off w + w) bytes ws

/-- The first `n` bytes, filled with 0 where there are fewer (R185). -/
def padTo (n : Nat) (bytes : List Byte) : List Byte := bytes.take n ++ List.replicate (n - bytes.length) 0

/-- A yes/no item as written (R185). -/
def flagItem (b : Bool) : Nat := if b then 1 else 0

/-- A yes/no item as read: 0 is no, any other value yes (R185). -/
def readFlag (v : Nat) : Bool := v != 0

/-- The argument items of a request, (width, value) in R186's order. -/
def Request.items : Request → List (Nat × Nat)
  | .noticeMode a => [(2, a.scope), (1, a.enables), (1, a.first), (1, a.second)]
  | .noticeTake a => [(2, a.scope), (1, a.mask)]
  | .serviceClear => []
  | .clipMake a => [(8, a.cookie), (1, a.volume), (1, a.rate), (1, flagItem a.growing)]
  | .clipAmend a => [(2, a.clip), (1, flagItem a.growing), (4, a.length), (8, a.cookie)]
  | .groupFix a => [(2, a.clip), (1, a.present), (2, a.group), (4, a.size), (8, a.base)]
  | .groupList a => [(2, a.clip), (2, a.group), (1, a.count), (8, a.address)]
  | .groupDrop a => [(2, a.clip), (2, a.group)]
  | .clipRetire a => [(2, a.clip), (1, flagItem a.withdraw)]
  | .clipAsk c => [(2, c)]
  | .frameAsk a => [(2, a.clip), (1, a.view), (4, a.frame)]
  | .viewDefine a =>
    [(1, a.view), (1, flagItem a.clear), (1, a.shape.lineStep), (2, a.shape.lead), (2, a.shape.firstLine),
      (2, a.shape.lineCount), (4, a.shape.lineBytes), (4, a.shape.colOffset), (4, a.shape.colBytes)]
  | .chanOpen a =>
    [(1, a.channel), (1, flagItem a.defaults), (1, a.primeDepth), (1, a.sustainDepth), (1, a.slotCount),
      (2, a.primePeriods), (4, a.slotBytes), (4, a.leadMargin), (8, a.ringBase), (8, a.recordArea)]
  | .chanBind a =>
    [(1, a.channel), (1, a.view), (1, flagItem a.loop), (1, flagItem a.follow), (1, flagItem a.alignDefault),
      (1, a.rateOverride), (2, a.clip), (4, a.inPoint), (4, a.lastFrame)]
  | .chanOptions a =>
    [(1, a.channel), (1, flagItem a.loop), (1, flagItem a.follow), (1, flagItem a.alignDefault), (4, a.inPoint),
      (4, a.lastFrame), (4, a.leadMargin)]
  | .chanDepth a => [(1, a.channel), (1, a.primeDepth), (1, a.sustainDepth), (2, a.primePeriods)]
  | .chanCue a => [(1, a.channel), (4, toUnsigned 4 a.position)]
  | .chanStart a => [(1, a.channel), (1, a.form), (8, a.time)]
  | .chanHold c => [(1, c)]
  | .chanSpeed a => [(1, a.channel), (1, flagItem a.apply.isSome), (2, toUnsigned 2 a.speed), (4, a.apply.getD 0)]
  | .chanJump a => [(1, a.channel), (4, toUnsigned 4 a.position)]
  | .chanClose c => [(1, c)]
  | .chanAsk a => [(1, a.number), (1, a.page)]
  | .slotReturn a => [(1, a.channel), (1, a.count)]
  | .pinSet a => [(1, a.view), (2, a.clip), (4, a.first), (2, a.count)]
  | .pinDrop p => [(1, p)]
  | .storeAsk a => [(1, a.number), (1, a.page)]
  | .volumeDefine a =>
    [(1, a.volume), (1, a.width), (1, flagItem a.parity), (2, a.unit)] ++
      (a.members ++ List.replicate (16 - a.members.length) 0).map (fun m => (1, m)) ++
      [(8, a.base), (8, a.memberLength)]
  | .volumeDissolve v => [(1, v)]
  | .memberHold m => [(1, m)]
  | .memberRelease m => [(1, m)]
  | .memberReturn m => [(1, m)]
  | .memberAsk m => [(1, m)]
  | .calibrate p => [(4, p)]
  | .timeAsk => []

/-- The widths of a kind's argument items (R186); none for a kind code that is not in the table. -/
def requestWidths : Nat → Option (List Nat)
  | 1 => some [2, 1, 1, 1]
  | 2 => some [2, 1]
  | 3 => some []
  | 16 => some [8, 1, 1, 1]
  | 17 => some [2, 1, 4, 8]
  | 18 => some [2, 1, 2, 4, 8]
  | 19 => some [2, 2, 1, 8]
  | 20 => some [2, 2]
  | 21 => some [2, 1]
  | 22 => some [2]
  | 23 => some [2, 1, 4]
  | 32 => some [1, 1, 1, 2, 2, 2, 4, 4, 4]
  | 48 => some [1, 1, 1, 1, 1, 2, 4, 4, 8, 8]
  | 49 => some [1, 1, 1, 1, 1, 1, 2, 4, 4]
  | 50 => some [1, 1, 1, 1, 4, 4, 4]
  | 51 => some [1, 1, 1, 2]
  | 52 => some [1, 4]
  | 53 => some [1, 1, 8]
  | 54 => some [1]
  | 55 => some [1, 1, 2, 4]
  | 56 => some [1, 4]
  | 57 => some [1]
  | 58 => some [1, 1]
  | 64 => some [1, 1]
  | 80 => some [1, 2, 4, 2]
  | 81 => some [1]
  | 82 => some [1, 1]
  | 96 => some ([1, 1, 1, 2] ++ List.replicate 16 1 ++ [8, 8])
  | 97 => some [1]
  | 98 => some [1]
  | 99 => some [1]
  | 100 => some [1]
  | 101 => some [1]
  | 112 => some [4]
  | 113 => some []
  | _ => none

/-- The members a VOLUME_DEFINE names: the first W of the sixteen items, none when W is above 16 (R186 note 2). -/
def memberItems (width : Nat) (items : List Nat) : List Nat := if width ≤ 16 then items.take width else []

/-- The VOLUME_DEFINE whose argument values these are. -/
def volumeDefineOf : List Nat → Option Request
  | v :: w :: p :: u :: rest =>
    match rest.drop 16 with
    | [b, l] => some (.volumeDefine ⟨v, w, readFlag p, u, memberItems w (rest.take 16), b, l⟩)
    | _ => none
  | _ => none

/-- The request of a kind with the given argument values (R186). -/
def requestOf (kind : Nat) (values : List Nat) : Option Request :=
  match kind, values with
  | 1, [s, e, m1, m2] => some (.noticeMode ⟨s, e, m1, m2⟩)
  | 2, [s, m] => some (.noticeTake ⟨s, m⟩)
  | 3, [] => some .serviceClear
  | 16, [c, v, r, g] => some (.clipMake ⟨c, v, r, readFlag g⟩)
  | 17, [h, g, l, c] => some (.clipAmend ⟨h, readFlag g, l, c⟩)
  | 18, [h, p, g, s, b] => some (.groupFix ⟨h, p, g, s, b⟩)
  | 19, [h, g, n, a] => some (.groupList ⟨h, g, n, a⟩)
  | 20, [h, g] => some (.groupDrop ⟨h, g⟩)
  | 21, [h, w] => some (.clipRetire ⟨h, readFlag w⟩)
  | 22, [h] => some (.clipAsk h)
  | 23, [h, v, f] => some (.frameAsk ⟨h, v, f⟩)
  | 32, [v, c, st, ld, fl, lc, lb, co, cb] => some (.viewDefine ⟨v, readFlag c, ⟨ld, lb, fl, lc, st, co, cb⟩⟩)
  | 48, [c, d, pd, sd, n, pp, sb, lm, rb, ra] => some (.chanOpen ⟨c, readFlag d, pd, sd, n, pp, sb, lm, rb, ra⟩)
  | 49, [c, v, lo, fo, al, ro, h, i, l] =>
    some (.chanBind ⟨c, v, readFlag lo, readFlag fo, readFlag al, ro, h, i, l⟩)
  | 50, [c, lo, fo, al, i, l, m] => some (.chanOptions ⟨c, readFlag lo, readFlag fo, readFlag al, i, l, m⟩)
  | 51, [c, pd, sd, pp] => some (.chanDepth ⟨c, pd, sd, pp⟩)
  | 52, [c, p] => some (.chanCue ⟨c, toSigned 4 p⟩)
  | 53, [c, f, t] => some (.chanStart ⟨c, f, t⟩)
  | 54, [c] => some (.chanHold c)
  | 55, [c, g, s, a] => some (.chanSpeed ⟨c, toSigned 2 s, if readFlag g then some a else none⟩)
  | 56, [c, p] => some (.chanJump ⟨c, toSigned 4 p⟩)
  | 57, [c] => some (.chanClose c)
  | 58, [c, p] => some (.chanAsk ⟨c, p⟩)
  | 64, [c, n] => some (.slotReturn ⟨c, n⟩)
  | 80, [v, h, f, n] => some (.pinSet ⟨v, h, f, n⟩)
  | 81, [p] => some (.pinDrop p)
  | 82, [n, p] => some (.storeAsk ⟨n, p⟩)
  | 96, vs => volumeDefineOf vs
  | 97, [v] => some (.volumeDissolve v)
  | 98, [m] => some (.memberHold m)
  | 99, [m] => some (.memberRelease m)
  | 100, [m] => some (.memberReturn m)
  | 101, [m] => some (.memberAsk m)
  | 112, [p] => some (.calibrate p)
  | 113, [] => some .timeAsk
  | _, _ => none

/-- The request in a 64-byte entry: kind in bytes 0 and 1, arguments from byte 8 (R186). -/
def decodeRequest (bytes : List Byte) : Option Request :=
  match requestWidths (leNat (bytes.take 2)) with
  | some ws => requestOf (leNat (bytes.take 2)) (unpackFrom 8 bytes ws)
  | none => none

/-- What a request entry puts in hand when its read ends (R174, R175). -/
def decodeEntry : Option (List Byte) → InHand
  | none => .failed
  | some bytes =>
    match decodeRequest bytes with
    | some r => .request (leNat ((bytes.drop 2).take 2)) r
    | none => .unknown (leNat ((bytes.drop 2).take 2)) (leNat (bytes.take 2))

/-- The 64 bytes of a request with its tag (R186). -/
def encodeRequest (tag : Nat) (r : Request) : List Byte :=
  padTo 64 (leBytes 2 r.kind ++ leBytes 2 tag ++ List.replicate 4 0 ++ packFrom 8 r.items)

/-- One entry of a GROUP_LIST list: address in bytes 0 to 7, size in bytes 8 to 11 (R189). -/
def decodeListEntry (bytes : List Byte) : Nat × Nat := (leNat (bytes.take 8), leNat ((bytes.drop 8).take 4))

/-- The first `n` entries of a GROUP_LIST list, 16 bytes each (R13, R189). -/
def decodeList : Nat → List Byte → List (Nat × Nat)
  | 0, _ => []
  | n + 1, bytes => decodeListEntry (bytes.take 16) :: decodeList n (bytes.drop 16)

/-- The command a word spells by the table's bits: the table gives no row any bits, so none. -/
def decodeTableWord (_nbits _w : Nat) : Option Instr := none

end Sys2Proof
end

