-- ==== Sys2Proof/Config.lean ====
section
/-! DEFINITION. What the part fixes as numbers, and the values the spec leaves free. -/

namespace Sys2Proof.Config

/-- Channels 0 to 63 (00 Handles and numbers). -/
def channels : Nat := 64
/-- Clip handles 1 to 4095 (R2). -/
def maxClip : Nat := 4095
/-- Members, and links, 0 to 15 (R140). -/
def members : Nat := 16
/-- Volumes 0 to 7 (R156). -/
def volumes : Nat := 8
/-- Views 0 to 15 (R26). -/
def views : Nat := 16
/-- Pins 0 to 31 (R118). -/
def pins : Nat := 32
/-- Tags 0 to 7 of a link (R141). -/
def tags : Nat := 8
/-- Directory pages of the pool (R3). -/
def dirPages : Nat := 8192
/-- Frame tables of the pool (R4). -/
def frameTables : Nat := 65536
/-- Largest clip length, in frames (R2). -/
def maxLength : Nat := 1048576
/-- Largest frame size, in bytes (R4). -/
def maxFrame : Nat := 268435456
/-- End of the 48-bit volume address space (R11). -/
def volumeSpace : Nat := 281474976710656
/-- Bytes of a sector (00 Units and quantities). -/
def sector : Nat := 4096
/-- End of the 40-bit member sector space (R157). -/
def memberSpace : Nat := 1099511627776
/-- Store pages (R105). -/
def storePages : Nat := 262144
/-- Bytes of a store page (R105). -/
def pageBytes : Nat := 65536
/-- Entry records of the Frame Store (R106). -/
def entryRecords : Nat := 65536
/-- Unit-read records of the Read Scheduler (R125). -/
def readRecords : Nat := 4096
/-- Most read records an entry is granted (R111). -/
def maxAllotment : Nat := 1024
/-- Limit of the pinned page total (R118). -/
def maxPinnedPages : Nat := 131072
/-- Limit of the pinned entry total (R118). -/
def maxPinnedEntries : Nat := 32768
/-- Available pages below which the store enters overload (R122). -/
def overloadEnter : Nat := 16384
/-- Available pages at which the store leaves overload (R122). -/
def overloadLeave : Nat := 32768
/-- Most entries of a read-ahead list (R78). -/
def maxList : Nat := 32
/-- Largest lead margin, in ticks (R44). -/
def maxLead : Nat := 2700000
/-- A cue's time to its expiry, in ticks (R53). -/
def cueTicks : Nat := 54000000
/-- A read's time to its expiry, in ticks (R143). -/
def readTicks : Nat := 10800000
/-- A return's time to its expiry, in ticks (R153). -/
def returnTicks : Nat := 27000000
/-- Largest gap a record reports (R93). -/
def maxGap : Nat := 65535
/-- Widest gap between runs that is read through, in sectors (R35). -/
def readThrough : Nat := 8

/-- Bound on the chain of consequences inside one event (log 25). -/
def settleFuel : Nat := 1048576
/-- Bound on the periods walked to find a frame's run; a run that is not for ever ends within 16 (R79, log 25). -/
def runFuel : Nat := 64
/-- Bound on the steps of a walk to a period of a read-ahead list (R78, log 25). -/
def walkFuel : Nat := 4096

/-- FREE VALUE (log 9). The detail byte of a RANGE whose cause is a clip of length 0 (R53, R55, R56, R62): R187 names no
argument for it. Applied to the number of free values drawn before. -/
opaque emptyClipDetail : Nat → BitVec 8

/-- FREE VALUE (log 9). Whether a RANGE for an in point above the last frame names L rather than I (R47, R187). -/
opaque orderDetailNamesL : Nat → Bool

/-- FREE VALUE (log 9). Whether a RANGE for two illegal modes names the second rather than the first (R181, R187). -/
opaque modeDetailNamesSecond : Nat → Bool

/-- FREE VALUE (log 9). The item M of a CALIBRATE answered NO_REF (R164 names the pulse count and the figure only). -/
opaque noRefCycles : Nat → BitVec 32

end Sys2Proof.Config
end

