-- ==== Sys2Proof/Machine/State.lean ====
section
/-! DEFINITION. The state of the part as plain data, block by block (00 Block overview), and its state after power-on
reset. A record kept in a `Tab` and not listed holds the reset record given beside its type. -/

namespace Sys2Proof.Machine

/-! ## Answers and outputs -/

/-- Result codes (00 Result codes, R185). -/
inductive Result where
  | ok | superseded | aborted | badKind | badHandle | badState | range | noSpace | bound | refused | failed | calRange
  | noRef | serialSpent
  deriving DecidableEq, Repr

/-- An item of an answer: its width in bytes and its value (R185, R187). -/
structure Item where
  width : Nat
  value : Nat
  deriving DecidableEq, Repr

/-- The 32-byte answer (R177, R187). -/
structure Answer where
  kind : Nat
  tag : Nat
  result : Result
  status : BitVec 8
  readFailure : Bool
  detail : BitVec 8
  items : List Item
  deriving DecidableEq, Repr

/-- A request taken whose answer is still owed: its kind and tag as read, and its place in the order of taking (R176). -/
structure Ticket where
  kind : Nat
  tag : Nat
  seq : Nat
  deriving DecidableEq, Repr

/-- An answer handed to the Request Port within the event now running (R176). -/
structure Handed where
  ticket : Ticket
  result : Result
  readFailure : Bool
  detail : BitVec 8
  items : List Item
  deriving DecidableEq, Repr

/-- Kinds of delivery record (R95). -/
inductive RecordKind where
  | frame | again | miss | revoke
  deriving DecidableEq, Repr

/-- Why a store entry failed (R106). -/
inductive FailReason where
  | media | noMember | viewOutside
  deriving DecidableEq, Repr

/-- The reason field of a delivery record (R95, R189). -/
inductive MissReason where
  | none | notReady | absent | oversize | failed (r : FailReason)
  deriving DecidableEq, Repr

/-- The 32-byte delivery record (R95, R189). `again` is the spec's REPEAT. -/
structure Record where
  kind : RecordKind
  reason : MissReason
  last : Bool
  edge : Bool
  shortView : Bool
  clip : Nat
  gap : Nat
  period : Word32
  frame : Nat
  byteCount : Nat
  due : Nat
  deriving DecidableEq, Repr

/-- What the part drives at its pins (log 8): reads and writes of host memory through the endpoint, messages on the media
links, changes of the notice line. `Layout.lean` gives the bytes of each write. -/
inductive Output where
  | readHost (address : Word64) (bytes : Nat)
  | answer (address : Word64) (a : Answer)
  | portRecord (address : Word64) (h a : Word32)
  | record (address : Word64) (r : Record)
  | produceWord (address : Word64) (count : Word32)
  | frameData (address : Word64) (data : List Byte)
  | sendRead (link tag sector count : Nat)
  | sendReset (link : Nat)
  | noticeLine (active : Bool)
  deriving DecidableEq, Repr

/-! ## Request Port (chapter 10) -/

/-- The port state (R170). -/
inductive PortState where
  | disabled | enabled | stopping
  deriving DecidableEq, Repr

/-- Where the reading of requests stands (R171, R174): nothing in hand, a read of entry H in flight, a read in flight that
a stop has condemned, a request in hand. -/
inductive Hand where
  | idle | reading | condemned | held (q : InHand)
  deriving DecidableEq, Repr

/-- The mode of a condition flag (R179). -/
inductive Mode where
  | enter | leave | both | level
  deriving DecidableEq, Repr

/-- A channel's enables and condition modes, owned by the Request Port (R179, R180). -/
structure NoticeSet where
  enables : BitVec 7
  missingMode : Mode
  edgeMode : Mode
  deriving DecidableEq, Repr

/-- After power-on reset (R179, R180). -/
def NoticeSet.initial : NoticeSet := ⟨0, .enter, .enter⟩

/-- A SERVICE_CLEAR that waits for transfers to end, with the three figures it will report (R183). -/
structure ClearWait where
  ticket : Ticket
  opened : Nat
  transfers : Nat
  aborted : Nat
  deriving DecidableEq, Repr

/-- The Request Port (R170, R178 to R180). `taken` numbers the requests taken since reset. -/
structure Port where
  reqBase : Word64
  reqSize : Word32
  reqTail : Word32
  ansBase : Word64
  ansSize : Word32
  ansHead : Word32
  state : PortState
  head : Word32
  produced : Word32
  reserved : Nat
  hand : Hand
  clearWait : Option ClearWait
  flags : BitVec 4
  enables : BitVec 4
  overloadMode : Mode
  refLostMode : Mode
  chanNotices : Tab NoticeSet
  lineActive : Bool
  taken : Nat
  deriving DecidableEq, Repr

/-! ## Frame Map (chapter 1) -/

/-- A frame's place on its volume (R4). -/
structure Location where
  address : Nat
  size : Nat
  deriving DecidableEq, Repr

/-- The three kinds of group slot (R4). A LISTED slot holds its frame table's 64 entries. -/
inductive GroupSlot where
  | empty
  | uniform (serial base size present : Nat)
  | listed (serial : Nat) (table : List (Option Location))
  deriving DecidableEq, Repr

/-- A directory page: its slots, and how many are not EMPTY (R3). -/
structure DirPage where
  slots : Tab GroupSlot
  count : Nat
  deriving DecidableEq, Repr

/-- An absent page reads as a page of 256 EMPTY slots (R3). -/
def DirPage.absent : DirPage := ⟨[], 0⟩

/-- The state of a clip (R2). -/
inductive ClipState where
  | free | live | retiring
  deriving DecidableEq, Repr

/-- A clip record (R2). -/
structure Clip where
  state : ClipState
  cookie : Nat
  volume : Nat
  rate : Nat
  length : Nat
  growing : Bool
  pages : Tab DirPage
  groupCount : Nat
  bindCount : Nat
  deriving DecidableEq, Repr

/-- A FREE clip's record (R2). -/
def Clip.initial : Clip := ⟨.free, 0, 0, 0, 0, false, [], 0, 0⟩

/-- A GROUP_LIST whose fetch is in flight, with what it has set aside (R13). -/
structure Fetch where
  ticket : Ticket
  clip : Nat
  group : Nat
  count : Nat
  tableAside : Bool
  pageAside : Bool
  deriving DecidableEq, Repr

/-- The Frame Map (R2 to R5, R7). `serial` is none when SPENT. -/
structure FrameMap where
  clips : Tab Clip
  freePages : Nat
  freeTables : Nat
  serial : Option Nat
  fetch : Option Fetch
  deriving DecidableEq, Repr

/-! ## Placement Unit (chapter 2) -/

/-- A view record (R26). -/
structure View where
  defined : Bool
  shape : Shape
  useCount : Nat
  deriving DecidableEq, Repr

/-- The shape of an UNDEFINED view, and of view 0 (R26). -/
def Shape.zero : Shape := ⟨0, 0, 0, 0, 0, 0, 0⟩

/-- Views 1 to 15 after power-on reset (R26). -/
def View.initial : View := ⟨false, Shape.zero, 0⟩

/-- View 0 after power-on reset: WHOLE, DEFINED at all times (R26). -/
def View.whole : View := ⟨true, Shape.zero, 0⟩

/-! ## Channel Controller (chapters 3 and 4) -/

/-- The six channel states (R45). -/
inductive ChanState where
  | free | idle | cueing | cued | running | held
  deriving DecidableEq, Repr

/-- The phase of the depth target (R82). -/
inductive Phase where
  | sustain | prime
  deriving DecidableEq, Repr

/-- The status of a read-ahead entry (R78). -/
inductive ListStatus where
  | waiting | filling | ready | failed (r : FailReason) | absent | oversize
  deriving DecidableEq, Repr

/-- A read-ahead entry (R78); a run of none is unbounded. WAITING with no store reference marks an entry not yet
resolved, within an event only. -/
structure ListEntry where
  frame : Nat
  first : Word32
  run : Option Nat
  status : ListStatus
  ref : Option Nat
  deriving DecidableEq, Repr

/-- A speed σ′ from change period c, with its CHAN_SPEED (R60). -/
structure PendingCourse where
  speed : Int
  change : Word32
  ticket : Ticket
  deriving DecidableEq, Repr

/-- The form of a pending start (R55). -/
inductive StartForm where
  | atTime (t : Nat) | atReference
  deriving DecidableEq, Repr

/-- A pending start, with its CHAN_START (R56). -/
structure PendingStart where
  form : StartForm
  ticket : Ticket
  deriving DecidableEq, Repr

/-- The CHAN_CUE or CHAN_JUMP whose answer waits, with the position it applied (R53, R62). -/
structure CueRequest where
  ticket : Ticket
  position : Int
  deriving DecidableEq, Repr

/-- A channel record (R44). `clip` 0 is unbound. `priorRecord` and `priorShown` say what stands just before the due index:
the latest period with a record, and whether the period before the due index was delivered or repeated (log 15). `listStands`
says that the clip began to grow after the list was last judged for extension (R66, R83, log 14). `atEdge` says that the period
of the due index is at the live edge, in every state that has one (R77), where `edge` is the EDGE condition of a channel that
produces there (R70, log 39). -/
structure Channel where
  state : ChanState
  ringBase : Nat
  recordArea : Nat
  slotCount : Nat
  slotBytes : Nat
  clip : Nat
  view : Option Nat
  inPoint : Nat
  lastFrame : Nat
  loop : Bool
  follow : Bool
  alignDefault : Bool
  rateOverride : Option Nat
  period : Nat
  speed : Int
  pos : Int
  course : Option PendingCourse
  start : Option PendingStart
  cue : Option CueRequest
  cueExpiry : Option Nat
  dueIndex : Word32
  dueTime : Option Nat
  lastRecord : Option Word32
  base : Option Nat
  list : List ListEntry
  primeDepth : Nat
  sustainDepth : Nat
  primePeriods : Nat
  phase : Phase
  remaining : Nat
  leadMargin : Nat
  missing : Bool
  edge : Bool
  flags : BitVec 7
  closeTicket : Option Ticket
  priorRecord : Option Word32
  priorShown : Bool
  listStands : Bool
  atEdge : Bool
  deriving DecidableEq, Repr

/-- The reset values of R44. -/
def Channel.initial : Channel where
  state := .free
  ringBase := 0
  recordArea := 0
  slotCount := 0
  slotBytes := 0
  clip := 0
  view := none
  inPoint := 0
  lastFrame := 0
  loop := false
  follow := false
  alignDefault := false
  rateOverride := none
  period := 0
  speed := 0
  pos := 0
  course := none
  start := none
  cue := none
  cueExpiry := none
  dueIndex := 0
  dueTime := none
  lastRecord := none
  base := none
  list := []
  primeDepth := 16
  sustainDepth := 6
  primePeriods := 48
  phase := .sustain
  remaining := 0
  leadMargin := 54000
  missing := false
  edge := false
  flags := 0
  closeTicket := none
  priorRecord := none
  priorShown := false
  listStands := false
  atEdge := false

/-! ## Delivery Engine (chapter 5) -/

/-- A transfer in flight: its store entry, its slot, the record fixed at its start (R98), and whether a REVOKE has voided
its period (R99). -/
structure Transfer where
  entry : Nat
  slot : Nat
  record : Record
  voided : Bool
  deriving DecidableEq, Repr

/-- A REVOKE decided and not yet written (R93, R101). -/
structure Revoke where
  period : Word32
  clip : Nat
  due : Nat
  deriving DecidableEq, Repr

/-- A channel's delivery ring (R93); a slot count of 0 is no ring. -/
structure Ring where
  base : Nat
  recordArea : Nat
  slotCount : Nat
  slotBytes : Nat
  produce : Word32
  returned : Word32
  taken : Nat
  nextSlot : Nat
  transfer : Option Transfer
  revoke : Option Revoke
  gap : Nat
  closing : Bool
  deriving DecidableEq, Repr

/-- The power-on values of R93. -/
def Ring.initial : Ring := ⟨0, 0, 0, 0, 0, 0, 0, 0, none, none, 0, false⟩

/-! ## Frame Store (chapter 6) and the plan of the Placement Unit -/

/-- Which bytes of a piece are delivered, and where (R39). -/
structure Extract where
  pieceOffset : Nat
  length : Nat
  delivered : Nat
  deriving DecidableEq, Repr

/-- One unit read's worth of a frame, placed on a member (R36 to R39); `others` are the members of its reconstruction set
in member index order (R40). -/
structure Piece where
  unit : Nat
  offset : Nat
  count : Nat
  memberIndex : Nat
  member : Nat
  sector : Nat
  extracts : List Extract
  others : List Nat
  deriving DecidableEq, Repr

/-- A store key (R106). -/
structure Key where
  serial : Nat
  index : Nat
  view : Nat
  deriving DecidableEq, Repr

/-- The state of a store entry (R106). -/
inductive EntryState where
  | filling | ready | failed (r : FailReason) | abandoned
  deriving DecidableEq, Repr

/-- An entry record in use (R106). `arrival` orders the wait list, `stamp` the reclaim list; `place` is the plan's piece
list (R43) and `lines` its effective line count, none for WHOLE (R33, R43); `loc` and `volume` are what it was planned
from, the volume none once it has been dissolved (R41, R159); `cleared` marks an entry SERVICE_CLEAR left under a hold
(R124). A deadline may be negative (log 56). -/
structure Entry where
  key : Key
  state : EntryState
  granted : Bool
  orphan : Bool
  bytes : Nat
  short : Bool
  lines : Option Nat
  pageNeed : Nat
  pages : List Nat
  pieces : Nat
  outstanding : Nat
  recordNeed : Nat
  allotment : Nat
  refs : Nat
  pins : Nat
  transfers : Nat
  deadlines : List Int
  arrival : Nat
  stamp : Nat
  volume : Option Nat
  loc : Location
  place : List Piece
  cleared : Bool
  deriving DecidableEq, Repr

/-- The state of a pin (R118). -/
inductive PinState where
  | free | full | part | lapsed
  deriving DecidableEq, Repr

/-- A pin (R118): `covered` gives each covered frame with its entry record. -/
structure Pin where
  state : PinState
  clip : Nat
  view : Nat
  first : Nat
  count : Nat
  held : Nat
  covered : List (Nat × Nat)
  deriving DecidableEq, Repr

/-- A FREE pin (R118). -/
def Pin.initial : Pin := ⟨.free, 0, 0, 0, 0, 0, []⟩

/-- Store memory: (address, byte) pairs, addresses strictly rising, no byte 0 listed; address = page × 65,536 + byte. An
address not listed reads as 0 (log 7). -/
abbrev Memory := List Host.Cell

/-- The Frame Store (R105, R106, R118, R122). -/
structure Store where
  freePages : Nat
  entries : Tab (Option Entry)
  pins : Tab Pin
  overload : Bool
  arrivals : Nat
  stamps : Nat
  memory : Memory
  deriving DecidableEq, Repr

/-! ## Read Scheduler (chapter 7) -/

/-- The class of an entry and of a read (R106, R125). -/
inductive Class where
  | playout | pin
  deriving DecidableEq, Repr

/-- A record holding a read (R125): QUEUED while `issue` is none, ISSUED under a tag with its issue class otherwise.
`context` is the entry it fills, `piece` the place of its piece there; `deadline` may be negative (log 56). -/
structure UnitRead where
  member : Nat
  sector : Nat
  count : Nat
  context : Nat
  piece : Nat
  ofSet : Bool
  cls : Class
  deadline : Option Int
  admission : Word32
  issue : Option (Nat × Class)
  detached : Bool
  deriving DecidableEq, Repr

/-- The status of a piece of a fill context (R126). `set`: reads outstanding, and whether one has placed its bytes;
`converting`: records gathered, and the order of conversion. -/
inductive PieceStatus where
  | unhanded | direct | set (outstanding : Nat) (placed : Bool) | converting (gathered order : Nat) | complete
  deriving DecidableEq, Repr

/-- A piece of a fill context (R126). -/
structure FillPiece where
  piece : Piece
  rebuilt : Bool
  status : PieceStatus
  deriving DecidableEq, Repr

/-- A fill context (R126). -/
structure Context where
  pieces : List FillPiece
  reserve : Nat
  abandoned : Bool
  deriving DecidableEq, Repr

/-- The Read Scheduler (R125, R126): QUEUED and ISSUED records, contexts by entry, the count of FREE records. -/
structure Sched where
  reads : List UnitRead
  contexts : Tab (Option Context)
  freeRecords : Nat
  admissions : Word32
  conversions : Nat
  deriving DecidableEq, Repr

/-! ## Media Link Controllers (chapter 8) -/

/-- A tag of a link (R141). -/
inductive TagState where
  | free | busy (expiry : Nat) (cls : Class) | quarantined
  deriving DecidableEq, Repr

/-- The state of a member (R148). -/
inductive MemberState where
  | unused | online | draining | held | failed
  deriving DecidableEq, Repr

/-- A link record, with its member's state (R140, R141). `resetSeen`: a RESET_DONE has been taken since power-on reset
(R160). -/
structure Link where
  up : Bool
  tags : Tab TagState
  failures : Nat
  member : MemberState
  volume : Option Nat
  index : Option Nat
  hold : Option Ticket
  ret : Option (Ticket × Nat)
  drainOk : Nat
  drainFailed : Nat
  resetSeen : Bool
  deriving DecidableEq, Repr

/-- The reset values of R141. -/
def Link.initial : Link := ⟨false, [], 0, .unused, none, none, none, none, 0, 0, false⟩

/-- A volume record (R156). -/
structure Volume where
  defined : Bool
  members : List Nat
  parity : Bool
  unit : Nat
  base : Nat
  memberLength : Nat
  rows : Nat
  capacity : Nat
  clipCount : Nat
  deriving DecidableEq, Repr

/-- An UNDEFINED volume (R156). -/
def Volume.initial : Volume := ⟨false, [], false, 0, 0, 0, 0, 0, 0⟩

/-! ## Timebase Unit (chapter 9) -/

/-- Whether a measurement is IDLE, ARMED or COUNTING (09). -/
inductive MeasureState where
  | idle | armed | counting
  deriving DecidableEq, Repr

/-- The measurement (09, R163). -/
structure Measurement where
  state : MeasureState
  ticket : Option Ticket
  period : Nat
  pulses : Nat
  cycles : Nat
  limit : Nat
  deriving DecidableEq, Repr

/-- No measurement: IDLE after reset and once one ends (09, R164, R165). No rule gives an IDLE measurement a period, a pulse
count, a cycle count or a limit time: DESIGN CHOICE, all four are 0 (log 54). -/
def Measurement.initial : Measurement := ⟨.idle, none, 0, 0, 0, 0⟩

/-- The Timebase Unit (09, table at the head of the chapter). `waits` holds each start wait's limit time by channel. -/
structure Timebase where
  house : Nat
  ticks : Nat
  cycles : Nat
  accumulator : Nat
  calibrated : Bool
  refPeriod : Option Nat
  figure : Int
  measure : Measurement
  monitor : Bool
  lastPulse : Option Nat
  refLost : Bool
  waits : Tab (Option Nat)
  deriving DecidableEq, Repr

/-! ## The part -/

/-- The state of the part, one field per block, then the model's own fields: the answers handed over within the running
event, the outputs so far, the free values drawn so far, and the queue of waiting commands. -/
structure State where
  port : Port
  map : FrameMap
  views : Tab View
  chans : Tab Channel
  rings : Tab Ring
  store : Store
  sched : Sched
  links : Tab Link
  volumes : Tab Volume
  time : Timebase
  handed : List Handed
  out : List Output
  freeDraws : Nat
  pending : List Instr
  deriving DecidableEq, Repr

/-- Faults. The spec gives the part no condition that stops it, so there is none: no command faults. -/
inductive Fault where
  deriving DecidableEq, Repr

/-- Refusals: a command without a meaning. No command of this model raises it (safe). -/
inductive Refusal where
  /-- Raised by an arm of `exec` whose command has no meaning yet; no arm raises it (safe). -/
  | notModelled (mnemonic : String)
  deriving DecidableEq, Repr

/-- The Request Port after power-on reset (R170, R178 to R180, R184): RESET_SEEN is bit 0 of the part flags (R185). -/
def Port.initial : Port where
  reqBase := 0
  reqSize := 0
  reqTail := 0
  ansBase := 0
  ansSize := 0
  ansHead := 0
  state := .disabled
  head := 0
  produced := 0
  reserved := 0
  hand := .idle
  clearWait := none
  flags := 1
  enables := 0
  overloadMode := .enter
  refLostMode := .enter
  chanNotices := []
  lineActive := false
  taken := 0

/-- The Timebase Unit after power-on reset (09, R161). -/
def Timebase.initial : Timebase where
  house := 0
  ticks := 1
  cycles := 1
  accumulator := 0
  calibrated := false
  refPeriod := none
  figure := 0
  measure := Measurement.initial
  monitor := false
  lastPulse := none
  refLost := false
  waits := []

/-- The part after power-on reset (R184 and each chapter's reset rule). -/
def State.reset : State where
  port := Port.initial
  map := ⟨[], Config.dirPages, Config.frameTables, some 1, none⟩
  views := [(0, View.whole)]
  chans := []
  rings := []
  store := ⟨Config.storePages, [], [], false, 0, 0, []⟩
  sched := ⟨[], [], Config.readRecords, 0, 0⟩
  links := []
  volumes := []
  time := Timebase.initial
  handed := []
  out := []
  freeDraws := 0
  pending := []

end Sys2Proof.Machine
end

