-- ==== Sys2Proof/Machine/Table.lean ====
section
/-! DEFINITION. Reading and writing keyed tables (`Tab`) in their canonical form, and small list helpers. -/

namespace Sys2Proof.Machine

/-- The record of number `k`; `d` where the table lists none. -/
def tget {α : Type} (d : α) : Tab α → Nat → α
  | [], _ => d
  | (k, v) :: t, i => if k = i then v else tget d t i

/-- The table without number `k`. -/
def terase {α : Type} (t : Tab α) (k : Nat) : Tab α := t.filter (fun c => c.1 != k)

/-- Puts (k, v) before the first listed number above `k`. -/
def tinsert {α : Type} (k : Nat) (v : α) : Tab α → Tab α
  | [] => [(k, v)]
  | c :: t => if k < c.1 then (k, v) :: c :: t else c :: tinsert k v t

/-- The table with record `v` at number `k`; a record equal to the default is not listed. -/
def tset {α : Type} [DecidableEq α] (d : α) (t : Tab α) (k : Nat) (v : α) : Tab α :=
  if v = d then terase t k else tinsert k v (terase t k)

/-- The table with record `k` changed by `f`. -/
def tmod {α : Type} [DecidableEq α] (d : α) (t : Tab α) (k : Nat) (f : α → α) : Tab α :=
  tset d t k (f (tget d t k))

/-- Every listed record changed by `f`; used where `f` leaves the default alone and makes no record the default. -/
def tmap {α : Type} (f : Nat → α → α) (t : Tab α) : Tab α := t.map (fun c => (c.1, f c.1 c.2))

/-- The numbers strictly rise. -/
def tsorted {α : Type} : Tab α → Bool
  | [] => true
  | [_] => true
  | c :: e :: t => decide (c.1 < e.1) && tsorted (e :: t)

/-- The canonical form: numbers strictly rising, no record equal to the default. -/
def twf {α : Type} [DecidableEq α] (d : α) (t : Tab α) : Bool := tsorted t && t.all (fun c => decide (c.2 ≠ d))

/-- The lowest number from `k` on that a table of rising numbers does not list. -/
def firstGap {α : Type} : Nat → Tab α → Nat
  | k, [] => k
  | k, c :: t => if c.1 < k then firstGap k t else if c.1 = k then firstGap (k + 1) t else k

/-- The first answer `f` gives over the list. -/
def firstSome {α β : Type} (f : α → Option β) : List α → Option β
  | [] => none
  | a :: l => match f a with
    | some b => some b
    | none => firstSome f l

/-- The first element no other precedes under `lt`. -/
def bestBy {α : Type} (lt : α → α → Bool) : List α → Option α
  | [] => none
  | a :: l => match bestBy lt l with
    | none => some a
    | some b => if lt b a then some b else some a

/-- Puts an element before the first it precedes under `lt`. -/
def insertBy {α : Type} (lt : α → α → Bool) (a : α) : List α → List α
  | [] => [a]
  | b :: l => if lt a b then a :: b :: l else b :: insertBy lt a l

/-- The list in the order of `lt`, equals keeping their order. -/
def sortBy {α : Type} (lt : α → α → Bool) (l : List α) : List α := l.foldl (fun acc a => insertBy lt a acc) []

/-- The sum of `f` over the list. -/
def sumOf {α : Type} (f : α → Nat) (l : List α) : Nat := l.foldl (fun n a => n + f a) 0

/-- The element at place `i` changed by `f`. -/
def modAt {α : Type} (f : α → α) : Nat → List α → List α
  | _, [] => []
  | 0, a :: l => f a :: l
  | i + 1, a :: l => a :: modAt f i l

/-- `f` done `n` times. -/
def times {α : Type} (f : α → α) : Nat → α → α
  | 0, a => a
  | n + 1, a => times f n (f a)

end Sys2Proof.Machine
end

