-- ==== Sys2Proof/Machine/Operands.lean ====
section
/-! DEFINITION. The part's arithmetic on operands: floor division (R1), period indices, rates, clamps (00 Refusal and
clamping). -/

namespace Sys2Proof.Machine

/-- Div, toward minus infinity (R1). -/
def divFloor (a b : Int) : Int := Int.fdiv a b

/-- Mod, with the sign of the divisor (R1). -/
def modFloor (a b : Int) : Int := Int.fmod a b

/-- Ceiling division of naturals (00 Units and quantities). -/
def ceilDiv (a b : Nat) : Nat := (a + b - 1) / b

/-- Period index `m` is later than `n`: (m − n) mod 2^32 lies in 1 to 2^31 − 1 (R1). -/
def later (m n : Word32) : Bool := decide (1 ≤ (m - n).toNat ∧ (m - n).toNat ≤ 2147483647)

/-- Period index `m` is `n` or later, in the forward sense (R1). -/
def atOrAfter (m n : Word32) : Bool := m == n || later m n

/-- The earlier of two period indices, in the forward sense (R60, R63). -/
def earlierOf (m n : Word32) : Word32 := if later m n then n else m

/-- How many periods `m` lies after `n`. -/
def periodsAfter (m n : Word32) : Nat := (m - n).toNat

/-- The index `k` periods after `n`, modulo 2^32 (R72). -/
def addPeriods (n : Word32) (k : Nat) : Word32 := n + BitVec.ofNat 32 k

/-- The period P of a rate code, in ticks (00 Frame rates); 0 for a code above 7. -/
def ratePeriod : Nat → Nat
  | 0 => 1126125
  | 1 => 1125000
  | 2 => 1080000
  | 3 => 900900
  | 4 => 900000
  | 5 => 540000
  | 6 => 450450
  | 7 => 450000
  | _ => 0

/-- A value clamped into [lo, hi]. -/
def clampNat (lo hi v : Nat) : Nat := min hi (max lo v)

/-- A signed value clamped into [lo, hi]. -/
def clampInt (lo hi v : Int) : Int := if v < lo then lo else if v > hi then hi else v

/-- The speed clamp of R59. -/
def clampSpeed (v : Int) : Int := clampInt (-512) 512 v

/-- The position clamp of R47: 16I if below, 16L + 15 if above. -/
def clampPosition (i l : Nat) (p : Int) : Int := clampInt (16 * i) (16 * l + 15) p

/-- The frame of a position (00 Units and quantities). -/
def frameOf (pos : Int) : Nat := (divFloor pos 16).toNat

/-- A rate override item: 255 is none (R186 note 3). -/
def overrideItem (v : Nat) : Option Nat := if v = 255 then none else some v

/-- An item that may be none, in one byte: none is 255 (R185). -/
def noneItem (o : Option Nat) : Nat := o.getD 255

/-- The mode of a code (R185); none for a code above 3. -/
def modeOfCode : Nat → Option Mode
  | 0 => some .enter
  | 1 => some .leave
  | 2 => some .both
  | 3 => some .level
  | _ => none

/-- The code of a mode (R185). -/
def Mode.code : Mode → Nat
  | .enter => 0
  | .leave => 1
  | .both => 2
  | .level => 3

/-- The code of a clip state (R185). -/
def ClipState.code : ClipState → Nat
  | .free => 0
  | .live => 1
  | .retiring => 2

/-- The code of a slot's kind (R185). -/
def GroupSlot.code : GroupSlot → Nat
  | .empty => 0
  | .uniform .. => 1
  | .listed .. => 2

/-- The code of a channel state (R185). -/
def ChanState.code : ChanState → Nat
  | .free => 0
  | .idle => 1
  | .cueing => 2
  | .cued => 3
  | .running => 4
  | .held => 5

/-- The code of a phase (R185). -/
def Phase.code : Phase → Nat
  | .sustain => 0
  | .prime => 1

/-- The code of a failure reason (R185). -/
def FailReason.code : FailReason → Nat
  | .media => 1
  | .noMember => 2
  | .viewOutside => 3

/-- The code of a store entry's state (R185). -/
def EntryState.code : EntryState → Nat
  | .filling => 0
  | .ready => 1
  | .failed _ => 2
  | .abandoned => 3

/-- The reason code of a store entry: 0 unless FAILED (R185). -/
def EntryState.reasonCode : EntryState → Nat
  | .failed r => r.code
  | _ => 0

/-- The code of a pin's state (R185). -/
def PinState.code : PinState → Nat
  | .free => 0
  | .full => 1
  | .part => 2
  | .lapsed => 3

/-- The code of a member's state (R185). -/
def MemberState.code : MemberState → Nat
  | .unused => 0
  | .online => 1
  | .draining => 2
  | .held => 3
  | .failed => 4

/-- The code of a result (R185). -/
def Result.code : Result → Nat
  | .ok => 0
  | .superseded => 1
  | .aborted => 2
  | .badKind => 3
  | .badHandle => 4
  | .badState => 5
  | .range => 6
  | .noSpace => 7
  | .bound => 8
  | .refused => 9
  | .failed => 10
  | .calRange => 11
  | .noRef => 12
  | .serialSpent => 13

/-- The code read from RING_ENABLE (R190). -/
def PortState.code : PortState → Nat
  | .disabled => 0
  | .enabled => 1
  | .stopping => 2

end Sys2Proof.Machine
end

