-- ==== Sys2Proof/Machine/Flags.lean ====
section
/-! DEFINITION. Notice flags: the bits of the two flag sets (R185), the condition modes (R179), the status word and the
notice line (R177, R180). -/

namespace Sys2Proof.Machine

/-- RESET_SEEN, bit 0 of the part set (R185). -/
def PartFlag.resetSeen : BitVec 4 := 1
/-- OVERLOAD, bit 1 of the part set (R185). -/
def PartFlag.overload : BitVec 4 := 2
/-- REF_LOST, bit 2 of the part set (R185). -/
def PartFlag.refLost : BitVec 4 := 4
/-- MEMBER, bit 3 of the part set (R185). -/
def PartFlag.member : BitVec 4 := 8

/-- CUED, bit 0 of a channel set (R185). -/
def ChanFlag.cued : BitVec 7 := 1
/-- SHORT, bit 1 of a channel set (R185). -/
def ChanFlag.short : BitVec 7 := 2
/-- END, bit 2 of a channel set (R185). -/
def ChanFlag.playEnd : BitVec 7 := 4
/-- WITHDRAWN, bit 3 of a channel set (R185). -/
def ChanFlag.withdrawn : BitVec 7 := 8
/-- REVISED, bit 4 of a channel set (R185). -/
def ChanFlag.revised : BitVec 7 := 16
/-- MISSING, bit 5 of a channel set (R185). -/
def ChanFlag.missing : BitVec 7 := 32
/-- EDGE, bit 6 of a channel set (R185). -/
def ChanFlag.edge : BitVec 7 := 64

/-- Whether a change of a condition sets its flag under the mode (R179): ENTER and LEVEL on becoming true, LEAVE on
becoming false, BOTH on either. -/
def Mode.reports (m : Mode) (was now : Bool) : Bool :=
  match m with
  | .enter => !was && now
  | .leave => was && !now
  | .both => was != now
  | .level => !was && now

/-- The flag bit when the condition calls for it, else no bit. -/
def flagIf {n : Nat} (b : Bool) (flag : BitVec n) : BitVec n := if b then flag else 0

/-- The flag bits a LEVEL mode sets while its condition is true (R179, R181, R182). -/
def levelBits {n : Nat} (m : Mode) (now : Bool) (flag : BitVec n) : BitVec n := flagIf (m == .level && now) flag

/-- The notices of a channel's number (R180). -/
def Port.notices (p : Port) (c : Nat) : NoticeSet := tget NoticeSet.initial p.chanNotices c

/-- ANY_CHANNEL: some channel has a flag set whose enable for that channel is set (R177). -/
def anyChannel (p : Port) (chans : Tab Channel) : Bool :=
  chans.any (fun c => c.2.flags &&& (p.notices c.1).enables != 0)

/-- Whether the notice line is active: any flag whose enable is set is set (R180). -/
def lineWanted (p : Port) (chans : Tab Channel) : Bool := (p.flags &&& p.enables != 0) || anyChannel p chans

/-- The status word: the part set with bit 4 ANY_CHANNEL (R177, R185). -/
def statusWord (p : Port) (chans : Tab Channel) : BitVec 8 :=
  p.flags.setWidth 8 ||| flagIf (anyChannel p chans) 16

end Sys2Proof.Machine
end

