-- ==== Sys2Proof/Machine/Ops.lean ====
section
/-! DEFINITION. Reading and writing the state's records, handing an answer to the Request Port, and the end of an event:
condition flags, answers, port record, notice line (R172, R176, R178 to R180). -/

namespace Sys2Proof.Machine

/-! ## Records by number -/

/-- The clip record of a handle (R2). -/
def State.clip (s : State) (h : Nat) : Clip := tget Clip.initial s.map.clips h
/-- Writes a clip record. -/
def State.setClip (s : State) (h : Nat) (c : Clip) : State :=
  { s with map := { s.map with clips := tset Clip.initial s.map.clips h c } }
/-- The view record of a number (R26). -/
def State.view (s : State) (v : Nat) : View := tget View.initial s.views v
/-- Writes a view record. -/
def State.setView (s : State) (v : Nat) (w : View) : State := { s with views := tset View.initial s.views v w }
/-- The channel record of a number (R44). -/
def State.chan (s : State) (c : Nat) : Channel := tget Channel.initial s.chans c
/-- Writes a channel record. -/
def State.setChan (s : State) (c : Nat) (ch : Channel) : State :=
  { s with chans := tset Channel.initial s.chans c ch }
/-- Changes a channel record. -/
def State.modChan (s : State) (c : Nat) (f : Channel → Channel) : State := s.setChan c (f (s.chan c))
/-- The channel's list is judged for extension from now on: an event of R83's list has come (log 14). -/
def Channel.judged (ch : Channel) : Channel := { ch with listStands := false }
/-- The delivery ring of a channel (R93). -/
def State.ring (s : State) (c : Nat) : Ring := tget Ring.initial s.rings c
/-- Writes a delivery ring. -/
def State.setRing (s : State) (c : Nat) (r : Ring) : State := { s with rings := tset Ring.initial s.rings c r }
/-- The entry record of a number, none when free (R106). -/
def State.entry (s : State) (e : Nat) : Option Entry := tget none s.store.entries e
/-- Writes an entry record. -/
def State.setEntry (s : State) (e : Nat) (o : Option Entry) : State :=
  { s with store := { s.store with entries := tset none s.store.entries e o } }
/-- Changes an entry record in use. -/
def State.modEntry (s : State) (e : Nat) (f : Entry → Entry) : State := s.setEntry e ((s.entry e).map f)
/-- The pin of a number (R118). -/
def State.pin (s : State) (p : Nat) : Pin := tget Pin.initial s.store.pins p
/-- Writes a pin. -/
def State.setPin (s : State) (p : Nat) (q : Pin) : State :=
  { s with store := { s.store with pins := tset Pin.initial s.store.pins p q } }
/-- The fill context of an entry (R126). -/
def State.context (s : State) (e : Nat) : Option Context := tget none s.sched.contexts e
/-- Writes a fill context. -/
def State.setContext (s : State) (e : Nat) (o : Option Context) : State :=
  { s with sched := { s.sched with contexts := tset none s.sched.contexts e o } }
/-- Changes a fill context that stands. -/
def State.modContext (s : State) (e : Nat) (f : Context → Context) : State := s.setContext e ((s.context e).map f)
/-- The link record of a member (R140, R141). -/
def State.link (s : State) (m : Nat) : Link := tget Link.initial s.links m
/-- Writes a link record. -/
def State.setLink (s : State) (m : Nat) (l : Link) : State := { s with links := tset Link.initial s.links m l }
/-- Changes a link record. -/
def State.modLink (s : State) (m : Nat) (f : Link → Link) : State := s.setLink m (f (s.link m))
/-- The volume record of a number (R156). -/
def State.volume (s : State) (v : Nat) : Volume := tget Volume.initial s.volumes v
/-- Writes a volume record. -/
def State.setVolume (s : State) (v : Nat) (w : Volume) : State :=
  { s with volumes := tset Volume.initial s.volumes v w }
/-- House time (R161). -/
def State.now (s : State) : Nat := s.time.house
/-- Appends an output (log 8). -/
def State.emit (s : State) (o : Output) : State := { s with out := s.out ++ [o] }
/-- Sets part flags (R178). -/
def State.setPartFlag (s : State) (f : BitVec 4) : State :=
  { s with port := { s.port with flags := s.port.flags ||| f } }
/-- Sets channel flags (R70). -/
def State.setChanFlag (s : State) (c : Nat) (f : BitVec 7) : State :=
  s.modChan c (fun ch => { ch with flags := ch.flags ||| f })
/-- One free value drawn (log 9). -/
def State.draw (s : State) : State := { s with freeDraws := s.freeDraws + 1 }

/-! ## Store memory (R105) -/

/-- The byte at an address of store memory; 0 where nothing is listed (log 7). -/
def readByte (m : Memory) (a : Nat) : Byte := tget 0 m a
/-- Writes a byte of store memory. -/
def writeByte (m : Memory) (a : Nat) (b : Byte) : Memory := tset 0 m a b
/-- Store memory in its canonical form: addresses rising, no byte 0 listed. -/
def Memory.wf (m : Memory) : Bool := twf (0 : Byte) m

/-! ## Answers handed to the Request Port (R176) -/

/-- Hands the answer of a request to the Request Port, with its detail byte. -/
def State.replyDetail (s : State) (t : Ticket) (r : Result) (detail : BitVec 8) (items : List Item) : State :=
  { s with handed := s.handed ++ [⟨t, r, false, detail, items⟩] }
/-- Hands an answer with detail 0. -/
def State.reply (s : State) (t : Ticket) (r : Result) (items : List Item) : State := s.replyDetail t r 0 items
/-- Hands an answer that carries no item. -/
def State.refuse (s : State) (t : Ticket) (r : Result) : State := s.reply t r []
/-- Hands a RANGE that names the argument at a place of R186's list (R187); 0 is a sum. -/
def State.refuseRange (s : State) (t : Ticket) (place : Nat) : State :=
  s.replyDetail t .range (BitVec.ofNat 8 place) []
/-- Hands a RANGE for a clip of length 0: its detail byte is a free value (log 9). -/
def State.refuseEmptyClip (s : State) (t : Ticket) : State :=
  (s.replyDetail t .range (Config.emptyClipDetail s.freeDraws) []).draw
/-- Hands an answer to a request that waited, if one did. -/
def State.refuseOpt (s : State) (t : Option Ticket) (r : Result) : State :=
  match t with
  | some t => s.refuse t r
  | none => s

/-- A one-byte item. -/
def item1 (v : Nat) : Item := ⟨1, v⟩
/-- A two-byte item. -/
def item2 (v : Nat) : Item := ⟨2, v⟩
/-- A four-byte item. -/
def item4 (v : Nat) : Item := ⟨4, v⟩
/-- An eight-byte item. -/
def item8 (v : Nat) : Item := ⟨8, v⟩
/-- A signed four-byte item. -/
def item4s (v : Int) : Item := ⟨4, (v % 4294967296).toNat⟩
/-- A signed two-byte item. -/
def item2s (v : Int) : Item := ⟨2, (v % 65536).toNat⟩
/-- A yes/no item (R185). -/
def itemFlag (b : Bool) : Item := ⟨1, if b then 1 else 0⟩

/-! ## The end of an event -/

/-- The channel flags that changes of its two conditions set (R178, R179). -/
def conditionBits (n : NoticeSet) (was now : Channel) : BitVec 7 :=
  flagIf (n.missingMode.reports was.missing now.missing) ChanFlag.missing |||
    flagIf (n.edgeMode.reports was.edge now.edge) ChanFlag.edge

/-- The channel records once the flags of the conditions that changed in the event are set, channel by channel. -/
def applyChanConditions (p : Port) (was now : Tab Channel) : Tab Channel :=
  (List.range Config.channels).foldl (fun t c =>
    let f := conditionBits (p.notices c) (tget Channel.initial was c) (tget Channel.initial now c)
    if f = 0 then t else tmod Channel.initial t c (fun ch => { ch with flags := ch.flags ||| f })) now

/-- The part flags that changes of OVERLOAD and REF_LOST set (R178, R179). -/
def partConditionBits (s0 s : State) : BitVec 4 :=
  flagIf (s.port.overloadMode.reports s0.store.overload s.store.overload) PartFlag.overload |||
    flagIf (s.port.refLostMode.reports s0.time.refLost s.time.refLost) PartFlag.refLost

/-- Every condition whose value at the end of the event differs from its value before is handed to the Request Port, which
sets its flag as its mode calls for (R178, R179 note 3). -/
def applyConditions (s0 s : State) : State :=
  { s with
    port := { s.port with flags := s.port.flags ||| partConditionBits s0 s }
    chans := applyChanConditions s.port s0.chans s.chans }

/-- The address of answer entry A (R170); past 2^64 it is reduced modulo 2^64 (log 50). -/
def answerAddress (p : Port) : Word64 := p.ansBase + BitVec.ofNat 64 (32 * (p.produced.toNat % p.ansSize.toNat))

/-- The address of request entry H (R170; past 2^64: log 50). -/
def requestAddress (p : Port) : Word64 := p.reqBase + BitVec.ofNat 64 (64 * (p.head.toNat % p.reqSize.toNat))

/-- The address of the port record (R170; past 2^64: log 50). -/
def portRecordAddress (p : Port) : Word64 := p.ansBase + BitVec.ofNat 64 (32 * p.ansSize.toNat)

/-- The answer as written, its status word taken now (R177). -/
def Handed.answer (h : Handed) (status : BitVec 8) : Answer :=
  ⟨h.ticket.kind, h.ticket.tag, h.result, status, h.readFailure, h.detail, h.items⟩

/-- Writes one answer into entry A; A rises and V falls; the write that brings V to 0 in STOPPING disables the port (R171,
R176). -/
def writeAnswer (s : State) (h : Handed) : State :=
  let s1 := s.emit (.answer (answerAddress s.port) (h.answer (statusWord s.port s.chans)))
  let v := s.port.reserved - 1
  { s1 with port := { s1.port with
      produced := s.port.produced + 1
      reserved := v
      state := if s.port.state = .stopping ∧ v = 0 then .disabled else s.port.state } }

/-- Writes every answer handed over in the event, in the order in which their requests were taken (R176). -/
def writeAnswers (s : State) : State :=
  let s1 := (sortBy (fun a b => decide (a.ticket.seq < b.ticket.seq)) s.handed).foldl writeAnswer s
  { s1 with handed := [] }

/-- The event enabled the rings (R171). -/
def justEnabled (p0 p : Port) : Bool := p0.state == .disabled && p.state == .enabled

/-- Writes the port record, once, when the event changed H or A or enabled the rings (R171, R172). -/
def writePortRecord (s0 s : State) : State :=
  if justEnabled s0.port s.port ∨ s.port.head ≠ s0.port.head ∨ s.port.produced ≠ s0.port.produced then
    s.emit (.portRecord (portRecordAddress s.port) s.port.head s.port.produced)
  else s

/-- Judges the notice line, which changes in the event (R180). -/
def judgeLine (s : State) : State :=
  let w := lineWanted s.port s.chans
  if w = s.port.lineActive then s
  else { s.emit (.noticeLine w) with port := { s.port with lineActive := w } }

/-- The end of an event that began in `s0`: conditions, answers, port record, notice line. -/
def finish (s0 s : State) : State := judgeLine (writePortRecord s0 (writeAnswers (applyConditions s0 s)))

end Sys2Proof.Machine
end

