-- ==== Sys2Proof/Machine/Course.lean ====
section
/-! DEFINITION. The arithmetic of positions (4.2): the step from one period to the next with the live edge, the loop wrap
and the end of play; runs (R79); positions of later periods; reckoned due times (R72, R73). -/

namespace Sys2Proof.Machine

/-- A channel's course (R58, R74): its range, loop, whether the live edge holds it (a following channel of a growing clip),
its speed, and a pending speed with its change period. -/
structure Course where
  inPoint : Nat
  lastFrame : Nat
  loop : Bool
  holds : Bool
  speed : Int
  pending : Option (Int × Word32)
  deriving DecidableEq, Repr

/-- A period with its position and whether it is at the live edge (R77). -/
structure Cursor where
  period : Word32
  pos : Int
  edge : Bool
  deriving DecidableEq, Repr

/-- The speed in force for a period (R74). -/
def Course.speedAt (k : Course) (n : Word32) : Int :=
  match k.pending with
  | some (v, c) => if atOrAfter n c then v else k.speed
  | none => k.speed

/-- The change period of the pending speed when it lies after a period. -/
def Course.changeAfter (k : Course) (n : Word32) : Option Word32 :=
  match k.pending with
  | some (_, c) => if later c n then some c else none
  | none => none

/-- The lowest position of the range (R47). -/
def Course.low (k : Course) : Int := 16 * k.inPoint

/-- The highest position of the range (R47). -/
def Course.high (k : Course) : Int := 16 * k.lastFrame + 15

/-- The loop length Λ in sixteenths (R75). -/
def Course.loopLength (k : Course) : Int := 16 * ((k.lastFrame : Int) - k.inPoint + 1)

/-- The position a candidate outside the range wraps to (R75). -/
def Course.wrap (k : Course) (cand : Int) : Int := k.low + modFloor (cand - k.low) k.loopLength

/-- Whether the period after `c` is at the live edge (R77). -/
def Course.edgeNext (k : Course) (c : Cursor) : Bool :=
  let v := k.speedAt c.period
  k.holds && decide (v > 0) && (decide (c.pos + v > k.high) || (c.edge && c.pos == 16 * (k.lastFrame : Int)))

/-- The period after `c` under the course, none when it is the end period (R74 to R77). -/
def Course.next (k : Course) (c : Cursor) : Option Cursor :=
  let cand := c.pos + k.speedAt c.period
  if k.edgeNext c then some ⟨c.period + 1, 16 * (k.lastFrame : Int), true⟩
  else if k.low ≤ cand ∧ cand ≤ k.high then some ⟨c.period + 1, cand, false⟩
  else if k.loop then some ⟨c.period + 1, k.wrap cand, false⟩
  else none

/-- The next period stands as this one does, so every later one does until the speed changes (R75, R77, R79). -/
def Cursor.still (c d : Cursor) : Bool := d.pos == c.pos && d.edge == c.edge

/-- Periods from `c` on that show frame `f`, `n` counted so far with `c`, and the period after them: no count for a run
without end, no period at the end of play (R79); the first argument bounds the walk (log 25). -/
def Course.walkRun (k : Course) (f : Nat) : Nat → Cursor → Nat → Option Nat × Option Cursor
  | 0, _, _ => (none, none)
  | fuel + 1, c, n =>
    match k.next c with
    | none => (some n, none)
    | some d =>
      if frameOf d.pos ≠ f then (some n, some d)
      else if c.still d then
        match k.changeAfter c.period with
        | none => (none, none)
        | some p => Course.walkRun k f fuel ⟨p, c.pos, c.edge⟩ (n + periodsAfter p c.period)
      else Course.walkRun k f fuel d (n + 1)

/-- A loop of one frame, where every position shows that frame (R75, R79). -/
def Course.oneFrame (k : Course) : Bool := k.loop && k.inPoint == k.lastFrame

/-- The run of the frame shown at `c`, and the period after it (R79). -/
def Course.run (k : Course) (c : Cursor) : Option Nat × Option Cursor :=
  if k.oneFrame then (none, none) else k.walkRun (frameOf c.pos) Config.runFuel c 1

/-- The period up to which the speed at a period stands, on the way to period `n`. -/
def Course.steadyUntil (k : Course) (c n : Word32) : Word32 :=
  match k.changeAfter c with
  | some p => earlierOf p n
  | none => n

/-- A cursor moved on towards period `stop` by whole rounds of 16 periods. In a loop of one frame the position wraps modulo 16,
so 16 periods at one speed bring it back (R75), unless the live edge comes first (R77); on another course it stays. -/
def Course.rounds (k : Course) (d : Cursor) (stop : Word32) : Cursor :=
  if k.oneFrame && !d.edge && !(k.holds && decide (k.speedAt d.period > 0)) then
    { d with period := addPeriods d.period (16 * (periodsAfter stop d.period / 16)) }
  else d

/-- The cursor of period `n`, walked from `c`; none past the end of play. A stretch that stands still is crossed in one step, a
loop of one frame in rounds. The first argument bounds the walk (log 25). -/
def Course.walkTo (k : Course) : Nat → Cursor → Word32 → Option Cursor
  | 0, _, _ => none
  | fuel + 1, c, n =>
    if c.period = n then some c
    else
      match k.next c with
      | none => none
      | some d =>
        let stop := k.steadyUntil c.period n
        Course.walkTo k fuel (if c.still d then ⟨stop, c.pos, c.edge⟩ else k.rounds d stop) n

/-- The cursor of a period at or after that of `c` (R74). -/
def Course.at (k : Course) (c : Cursor) (n : Word32) : Option Cursor := k.walkTo Config.walkFuel c n

/-- The first period from the cursors on whose positions differ under two courses, among the first `fuel` periods (R65). -/
def firstDifference (a b : Course) : Nat → Option Cursor → Option Cursor → Word32 → Option Word32
  | 0, _, _, _ => none
  | fuel + 1, x, y, n =>
    if x.map Cursor.pos ≠ y.map Cursor.pos then some n
    else firstDifference a b fuel (x.bind a.next) (y.bind b.next) (n + 1)

/-! ## A channel's course and times -/

/-- The course of a channel as it stands (R58). -/
def courseOf (s : State) (ch : Channel) : Course where
  inPoint := ch.inPoint
  lastFrame := ch.lastFrame
  loop := ch.loop
  holds := ch.follow && (s.clip ch.clip).growing
  speed := ch.speed
  pending := ch.course.map (fun p => (p.speed, p.change))

/-- The cursor of the due index (R44, R74), at the edge as the period before it made it (R77, log 39). -/
def Channel.due (ch : Channel) : Cursor := ⟨ch.dueIndex, ch.pos, ch.atEdge⟩

/-- The cursor of a period at or after the due index. -/
def cursorOf (s : State) (ch : Channel) (n : Word32) : Option Cursor := (courseOf s ch).at ch.due n

/-- The reckoning base, an AT_TIME start standing in its place while pending (R73). -/
def Channel.reckoning (ch : Channel) : Option Nat :=
  match ch.start with
  | some ⟨.atTime t, _⟩ => some t
  | _ => ch.base

/-- The due time, or outside RUNNING the reckoned due time, of a period at or after the due index (R72, R73). -/
def Channel.dueOf (ch : Channel) (n : Word32) : Option Nat :=
  let k := periodsAfter n ch.dueIndex
  if ch.state = .running then ch.dueTime.map (fun t => t + k * ch.period)
  else ch.reckoning.map (fun b => b + (k + 1) * ch.period)

/-- A record stands for a period at or after `r`: the last record period is at or after it (R58, R63). -/
def Channel.recordFrom (ch : Channel) (r : Word32) : Bool :=
  match ch.lastRecord with
  | some n => atOrAfter n r
  | none => false

/-- The first unwritten period at or after the due index (R82). -/
def Channel.firstUnwritten (ch : Channel) : Word32 :=
  match ch.lastRecord with
  | some n => if atOrAfter n ch.dueIndex then n + 1 else ch.dueIndex
  | none => ch.dueIndex

/-- The phase of a channel that enters PRIME, SUSTAIN when its prime periods are 0 (R53, R58, R82). -/
def Channel.prime (ch : Channel) : Channel :=
  { ch with phase := if ch.primePeriods = 0 then .sustain else .prime, remaining := ch.primePeriods }

/-- The depth target of a channel (R82). -/
def depthTarget (s : State) (ch : Channel) : Nat :=
  let d := match ch.phase with
    | .prime => ch.primeDepth
    | .sustain => ch.sustainDepth
  if s.store.overload then min d 2 else d

end Sys2Proof.Machine
end

