-- ==== Sys2Proof/Machine/Lookup.lean ====
section
/-! DEFINITION. Reading the Frame Map: a clip's group slots and the lookup (R3, R4, R6). -/

namespace Sys2Proof.Machine

/-- The three outcomes of a lookup (R6). -/
inductive LookupOutcome where
  | outside
  | absent
  | present (serial index address size : Nat)
  deriving DecidableEq, Repr

/-- The code of a lookup outcome (R185). -/
def LookupOutcome.code : LookupOutcome → Nat
  | .outside => 0
  | .absent => 1
  | .present .. => 2

/-- The directory page a page-list entry names; an absent entry reads as a page of EMPTY slots (R3). -/
def Clip.page (c : Clip) (k : Nat) : DirPage := tget DirPage.absent c.pages k

/-- The slot of a directory page (R3). -/
def DirPage.slot (p : DirPage) (k : Nat) : GroupSlot := tget GroupSlot.empty p.slots k

/-- The slot of group g: page g div 256, slot g mod 256 (R6). -/
def Clip.slot (c : Clip) (g : Nat) : GroupSlot := (c.page (g / 256)).slot (g % 256)

/-- The slot's serial; 0 for an EMPTY slot (R4, R24). -/
def GroupSlot.serial : GroupSlot → Nat
  | .empty => 0
  | .uniform n .. => n
  | .listed n _ => n

/-- Whether a slot holds a serial. -/
def GroupSlot.isEmpty : GroupSlot → Bool
  | .empty => true
  | _ => false

/-- Whether a slot names a frame table. -/
def GroupSlot.isListed : GroupSlot → Bool
  | .listed .. => true
  | _ => false

/-- The frame at index i of a group (R4). -/
def GroupSlot.frame (g : GroupSlot) (i : Nat) : LookupOutcome :=
  match g with
  | .empty => .absent
  | .uniform n b z p => if i < p then .present n i (b + i * z) z else .absent
  | .listed n t =>
    match t[i]? with
    | some (some l) => .present n i l.address l.size
    | _ => .absent

/-- The lookup of a frame of a clip (R6). -/
def lookup (s : State) (clip f : Nat) : LookupOutcome :=
  let c := s.clip clip
  if f ≥ c.length then .outside else (c.slot (f / 64)).frame (f % 64)

/-- A handle that names no clip: 0, above 4095, or FREE (R7). -/
def badClip (s : State) (h : Nat) : Bool := h == 0 || decide (h > Config.maxClip) || (s.clip h).state == .free

end Sys2Proof.Machine
end

