-- ==== Sys2Proof/Machine/Placement.lean ====
section
/-! DEFINITION. The Placement Unit (chapter 2): claims on views, the size, plan and grant questions in six stages, and the
decision of a single piece. -/

namespace Sys2Proof.Machine

/-! ## Views -/

/-- Whether a view is DEFINED; view 0 always is (R26). -/
def viewDefined (s : State) (v : Nat) : Bool := decide (v < Config.views) && (v == 0 || (s.view v).defined)

/-- A claim on a DEFINED view raises its use count (R27). -/
def claimView (s : State) (v : Nat) : State := s.setView v { s.view v with useCount := (s.view v).useCount + 1 }

/-- A release lowers the use count (R27). -/
def releaseView (s : State) (v : Nat) : State := s.setView v { s.view v with useCount := (s.view v).useCount - 1 }

/-- The release of a binding's view, where it names one (R27). -/
def releaseViewOpt (s : State) : Option Nat → State
  | none => s
  | some v => releaseView s v

/-- R28 check 3: the place in R186's list of the first shape field out of its range, 0 for the sum; none when all pass. -/
def shapeFault (h : Shape) : Option Nat :=
  if h.lead > 65535 then some 4
  else if h.lineBytes < 1 ∨ h.lineBytes > 1048576 then some 7
  else if h.firstLine > 65535 then some 5
  else if h.lineCount < 1 ∨ h.lineCount > 8192 then some 6
  else if h.lineStep ≠ 1 ∧ h.lineStep ≠ 2 ∧ h.lineStep ≠ 4 then some 3
  else if h.colBytes < 1 then some 9
  else if h.colOffset + h.colBytes > h.lineBytes then some 0
  else none

/-! ## Stages 1 and 2: ranges -/

/-- The effective line count c of R33. -/
def lineCountOf (h : Shape) (size : Nat) : Nat :=
  let r : Int := (size : Int) - h.lead - h.colOffset - h.colBytes - (h.firstLine * h.lineBytes : Nat)
  if r < 0 then 0 else min h.lineCount ((divFloor r (h.lineStep * h.lineBytes : Nat)).toNat + 1)

/-- The size answer (R30): delivered bytes and whether the view is short; none is VIEW_OUTSIDE (R31, R33). -/
def sizeOf (view : Nat) (h : Shape) (size : Nat) : Option (Nat × Bool) :=
  if view = 0 then some (size, false)
  else
    let c := lineCountOf h size
    if c = 0 then none else some (c * h.colBytes, decide (c < h.lineCount))

/-- The effective line count a placement reports; none for WHOLE (R31, R33, R43). -/
def lineAnswer (view : Nat) (h : Shape) (size : Nat) : Option Nat := if view = 0 then none else some (lineCountOf h size)

/-- A selected range of volume bytes [start, stop) and the delivered byte its first byte becomes (R31, R32). -/
structure ByteRange where
  start : Nat
  stop : Nat
  delivered : Nat
  deriving DecidableEq, Repr

/-- Selected line i of a frame at a volume address (R32). -/
def lineRange (h : Shape) (address i : Nat) : ByteRange :=
  let a := address + h.lead + (h.firstLine + i * h.lineStep) * h.lineBytes + h.colOffset
  ⟨a, a + h.colBytes, i * h.colBytes⟩

/-- The selected ranges of a frame under a view (R31 to R33). -/
def byteRanges (view : Nat) (h : Shape) (loc : Location) : List ByteRange :=
  if view = 0 then [⟨loc.address, loc.address + loc.size, 0⟩]
  else (List.range (lineCountOf h loc.size)).map (lineRange h loc.address)

/-! ## Stages 3 and 4: sectors and pieces -/

/-- The sectors a range covers, [start, stop) (R34). -/
def sectorRun (r : ByteRange) : Nat × Nat := (r.start / Config.sector, ceilDiv r.stop Config.sector)

/-- Merges runs in order, the first given open; a gap of at most 8 sectors is read through (R35). -/
def mergeRuns : Nat × Nat → List (Nat × Nat) → List (Nat × Nat)
  | o, [] => [o]
  | o, r :: rest =>
    if r.1 ≤ o.2 + Config.readThrough then mergeRuns (o.1, max o.2 r.2) rest else o :: mergeRuns r rest

/-- The merged runs of a frame's ranges (R35). -/
def mergedRuns : List ByteRange → List (Nat × Nat)
  | [] => []
  | r :: rest => mergeRuns (sectorRun r) (rest.map sectorRun)

/-- Cuts the run [x, y) at every multiple of U (R36); `n` bounds the cuts. -/
def cutRun (unit : Nat) : Nat → Nat × Nat → List (Nat × Nat)
  | 0, _ => []
  | n + 1, (x, y) =>
    if x ≥ y then []
    else
      let e := min y ((x / unit + 1) * unit)
      (x, e) :: cutRun unit n (e, y)

/-- The pieces' sector runs of a frame, in increasing order (R36). -/
def pieceRuns (unit : Nat) (ranges : List ByteRange) : List (Nat × Nat) :=
  (mergedRuns ranges).flatMap (fun r => cutRun unit (r.2 - r.1) r)

/-! ## Stage 5: members and extracts -/

/-- The member index and member sector of a unit's sector `off` (R37, R38). -/
def placeUnit (v : Volume) (u off : Nat) : Nat × Nat :=
  let w := v.members.length
  if v.parity then
    let d := w - 1
    let st := u / d
    let p := (w - 1) - st % w
    ((p + 1 + u % d) % w, v.base + st * v.unit + off)
  else (u % w, v.base + u / w * v.unit + off)

/-- The extract of one range within a piece of sectors [x, y), where they meet (R39). -/
def extractOf (x y : Nat) (r : ByteRange) : Option Extract :=
  let lo := max r.start (x * Config.sector)
  let hi := min r.stop (y * Config.sector)
  if lo < hi then some ⟨lo - x * Config.sector, hi - lo, r.delivered + (lo - r.start)⟩ else none

/-- The piece of sectors [x, y), placed on its member (R36 to R40). -/
def pieceAt (v : Volume) (ranges : List ByteRange) (run : Nat × Nat) : Piece :=
  let u := run.1 / v.unit
  let off := run.1 % v.unit
  let k := placeUnit v u off
  { unit := u
    offset := off
    count := run.2 - run.1
    memberIndex := k.1
    member := v.members.getD k.1 0
    sector := k.2
    extracts := ranges.filterMap (extractOf run.1 run.2)
    others := v.members.eraseIdx k.1 }

/-- The plan question: the piece list of a frame under a view on a volume (R30, R43). -/
def planOf (v : Volume) (view : Nat) (h : Shape) (loc : Location) : List Piece :=
  let ranges := byteRanges view h loc
  (pieceRuns v.unit ranges).map (pieceAt v ranges)

/-! ## Stage 6 and the decision of a piece -/

/-- Whether a member is ONLINE. -/
def online (s : State) (m : Nat) : Bool := (s.link m).member == .online

/-- A piece is reconstructible when its volume stands defined with parity and every other member is ONLINE (R41, R134); a
set holds at least one read (R40). -/
def reconstructible (s : State) (volume : Nat) (p : Piece) : Bool :=
  (s.volume volume).defined && (s.volume volume).parity && !p.others.isEmpty && p.others.all (online s)

/-- The read kind of one piece at the grant: direct (false) or reconstructed (true); none fails the entry (R41). -/
def readKind (s : State) (volume : Nat) (p : Piece) : Option Bool :=
  if online s p.member then some false else if reconstructible s volume p then some true else none

/-- The read records a piece needs (R40). -/
def pieceNeed (p : Piece) (rebuilt : Bool) : Nat := if rebuilt then p.others.length else 1

/-- The grant question: each piece's read kind, or none when the entry fails with NO_MEMBER (R41). -/
def grantKinds (s : State) (volume : Nat) : List Piece → Option (List FillPiece)
  | [] => some []
  | p :: ps =>
    match readKind s volume p, grantKinds s volume ps with
    | some k, some r => some (⟨p, k, .unhanded⟩ :: r)
    | _, _ => none

/-- The answer to the grant question; a volume no longer defined, or dissolved since the entry was planned, fails the entry
(R41, R121, R159). -/
def grantAnswer (s : State) (volume : Option Nat) (ps : List Piece) : Option (List FillPiece) :=
  match volume with
  | some v => if (s.volume v).defined then grantKinds s v ps else none
  | none => none

/-- The read-record need of pieces with their kinds (R41). -/
def needOf (ps : List FillPiece) : Nat := sumOf (fun p => pieceNeed p.piece p.rebuilt) ps

/-- The read-record need of a plan under member states as they stand: a piece that could not be read counts as one record
(R30). -/
def planNeed (s : State) (volume : Nat) (ps : List Piece) : Nat :=
  sumOf (fun p => match readKind s volume p with
    | some k => pieceNeed p k
    | none => 1) ps

end Sys2Proof.Machine
end

