-- ==== Sys2Proof/Machine/Sched.lean ====
section
/-! DEFINITION. The Read Scheduler (chapter 7) and what it tells the Frame Store: reads made and issued, records released,
conversions, completions, losses, the failure of an entry. A record given back is counted toward a conversion or a reserve
at once; the handing it allows is done by `settle` in the same event (log 5). -/

namespace Sys2Proof.Machine

/-! ## Entries and their referrers -/

/-- The class of an entry (R106). -/
def Entry.cls (e : Entry) : Class := if e.refs > 0 then .playout else .pin

/-- The least of the deadlines the referrers give, none when none is held (R107). -/
def leastOf : List Int → Option Int
  | [] => none
  | d :: ds => match leastOf ds with
    | none => some d
    | some m => some (min d m)

/-- The deadline of an entry (R107). -/
def Entry.deadline (e : Entry) : Option Int := leastOf e.deadlines

/-- No list entry, pin or transfer uses the entry (R113). -/
def Entry.unused (e : Entry) : Bool := e.refs == 0 && e.pins == 0 && e.transfers == 0

/-- Every list entry that refers to the store entry takes the status (R81). -/
def tellReferrers (s : State) (id : Nat) (st : ListStatus) : State :=
  { s with chans := tmap (fun _ ch => { ch with
      list := ch.list.map (fun le => if le.ref = some id then { le with status := st } else le) }) s.chans }

/-- The entry joins the reclaim list with a new release stamp (R113, R114). -/
def stampEntry (s : State) (id : Nat) : State :=
  let s1 := s.modEntry id (fun e => { e with stamp := s.store.stamps })
  { s1 with store := { s1.store with stamps := s1.store.stamps + 1 } }

/-- The stamp of an entry that has just become READY or FAILED with no user (R112). -/
def stampIfUnused (s : State) (id : Nat) : State :=
  match s.entry id with
  | some e => if e.unused then stampEntry s id else s
  | none => s

/-- The entry's pages return to the free pages and its page list empties (R105). -/
def returnPages (s : State) (id : Nat) : State :=
  match s.entry id with
  | some e =>
    let s1 := s.setEntry id (some { e with pages := [] })
    { s1 with store := { s1.store with freePages := s1.store.freePages + e.pages.length } }
  | none => s

/-- The entry record becomes free, its pages returned (R114, R115). -/
def freeEntry (s : State) (id : Nat) : State := (returnPages s id).setEntry id none

/-! ## Queues -/

/-- A read's rank in R129's order. -/
def UnitRead.rank (r : UnitRead) : Nat :=
  match r.cls, r.deadline with
  | .playout, some _ => 0
  | .playout, none => 1
  | .pin, _ => 2

/-- The order of a member's queue (R129): rank, then deadline, then admission in the forward sense. -/
def queuedBefore (a b : UnitRead) : Bool :=
  if a.rank ≠ b.rank then decide (a.rank < b.rank)
  else match a.rank, a.deadline, b.deadline with
    | 0, some x, some y => if x ≠ y then decide (x < y) else later b.admission a.admission
    | _, _, _ => later b.admission a.admission

/-- A QUEUED read of a member. -/
def UnitRead.queuedOn (r : UnitRead) (m : Nat) : Bool := r.member == m && r.issue.isNone

/-- The member's queue, head first (R129). -/
def queueOf (s : State) (m : Nat) : List UnitRead := sortBy queuedBefore (s.sched.reads.filter (·.queuedOn m))

/-- The head of a member's queue (R129). -/
def queueHead (s : State) (m : Nat) : Option UnitRead := bestBy queuedBefore (s.sched.reads.filter (·.queuedOn m))

/-- Takes one read out of the scheduler's records. -/
def dropRead (s : State) (r : UnitRead) : State :=
  { s with sched := { s.sched with reads := s.sched.reads.erase r } }

/-- Reads of a context that are ISSUED and still serve it (R126). -/
def inFlight (s : State) (id : Nat) : Nat :=
  (s.sched.reads.filter (fun r => r.context == id && !r.detached && r.issue.isSome)).length

/-- Makes one QUEUED read for a piece, with its entry's class and deadline and the next admission number (R125, R126). -/
def makeRead (s : State) (id i : Nat) (p : Piece) (ofSet : Bool) (m : Nat) : State :=
  let e := s.entry id
  let r : UnitRead :=
    { member := m, sector := p.sector, count := p.count, context := id, piece := i, ofSet := ofSet
      cls := (e.map Entry.cls).getD .pin, deadline := e.bind Entry.deadline
      admission := s.sched.admissions, issue := none, detached := false }
  { s with sched := { s.sched with reads := s.sched.reads ++ [r], admissions := s.sched.admissions + 1 } }

/-- The pieces of a context, the one at place `i` changed. -/
def modPiece (s : State) (id i : Nat) (f : FillPiece → FillPiece) : State :=
  s.modContext id (fun c => { c with pieces := modAt f i c.pieces })

/-- The piece at a place of a context. -/
def pieceOf (s : State) (id i : Nat) : Option FillPiece := (s.context id).bind (fun c => c.pieces[i]?)

/-- Makes the W − 1 reads of a reconstructed piece, in member index order; the piece becomes SET (R126, R128). -/
def makeSet (s : State) (id i : Nat) (p : Piece) : State :=
  modPiece (p.others.foldl (fun s m => makeRead s id i p true m) s) id i
    (fun q => { q with rebuilt := true, status := .set p.others.length false })

/-! ## Records released (R127) -/

/-- The records a CONVERTING piece has gathered. -/
def FillPiece.gathered (q : FillPiece) : Nat :=
  match q.status with
  | .converting g _ => g
  | _ => 0

/-- The place in a context of its oldest CONVERTING piece of those that pass a test, with the order of conversion. -/
def oldestWhere (f : Piece → Bool) (c : Context) : Option (Nat × Nat) :=
  bestBy (fun a b => decide (a.2 < b.2)) (c.pieces.zipIdx.filterMap (fun x => match x.1.status with
    | .converting _ o => if f x.1.piece then some (x.2, o) else none
    | _ => none))

/-- The place in a context of its oldest CONVERTING piece, with the order of conversion. -/
def oldestIn (c : Context) : Option (Nat × Nat) := oldestWhere (fun _ => true) c

/-- The oldest CONVERTING piece of the part that can become a set: its context and place (R127 step 3). A piece whose
would-be set includes a member that has just left ONLINE fails its entry in the same event and gathers nothing more (R128,
R129, R134; log 43). -/
def oldestConverting (s : State) : Option (Nat × Nat) :=
  (bestBy (fun (a b : Nat × Nat × Nat) => decide (a.2.2 < b.2.2))
    (s.sched.contexts.filterMap (fun c =>
      (c.2.bind (oldestWhere (fun p => p.others.all (online s)))).map (fun x => (c.1, x.1, x.2))))).map
        (fun x => (x.1, x.2.1))

/-- One record gathered toward a CONVERTING piece; with W − 1 its set's reads are made (R128). -/
def gatherOne (s : State) (id i : Nat) : State :=
  match pieceOf s id i with
  | some q =>
    match q.status with
    | .converting g o =>
      if g + 1 ≥ q.piece.others.length then makeSet s id i q.piece
      else modPiece s id i (fun q => { q with status := .converting (g + 1) o })
    | _ => s
  | none => s

/-- A record given back by no standing context: to the oldest conversion of the part, else FREE (R127 steps 3 and 4). -/
def releaseLoose (s : State) : State :=
  match oldestConverting s with
  | some (id, i) => gatherOne s id i
  | none => { s with sched := { s.sched with freeRecords := s.sched.freeRecords + 1 } }

/-- Several records given back by no standing context. -/
def releaseMany (s : State) (n : Nat) : State := times releaseLoose n s

/-- A record given back within a context: its own oldest conversion, its reserve while it has UNHANDED pieces, then as
`releaseLoose` (R127). -/
def releaseWithin (s : State) (id : Nat) : State :=
  match s.context id with
  | some c =>
    match oldestIn c with
    | some (i, _) => gatherOne s id i
    | none =>
      if c.pieces.any (fun q => q.status == .unhanded) then
        s.modContext id (fun c => { c with reserve := c.reserve + 1 })
      else releaseLoose s
  | none => releaseLoose s

/-- The records a context holds besides its reads: reserve and gathered (R126). -/
def Context.heldRecords (c : Context) : Nat := c.reserve + sumOf FillPiece.gathered c.pieces

/-- The QUEUED reads of a context are cancelled and its pieces dropped; gives the state and the records set free. The
context is left with `f` of it (R135 steps 1 and 2, R136). -/
def cancelContext (s : State) (id : Nat) (f : Option Context → Option Context) : State × Nat :=
  let gone := s.sched.reads.filter (fun r => r.context == id && !r.detached && r.issue.isNone)
  let keep := s.sched.reads.filter (fun r => !(r.context == id && !r.detached && r.issue.isNone))
  let s1 := { s with sched := { s.sched with reads := keep } }
  (s1.setContext id (f (s1.context id)), gone.length + ((s.context id).map Context.heldRecords).getD 0)

/-- Every ISSUED read of a context is detached (R135 step 3). -/
def detachReads (s : State) (id : Nat) : State :=
  { s with sched := { s.sched with
      reads := s.sched.reads.map (fun r => if r.context == id then { r with detached := true } else r) } }

/-- The context is closed: queued reads cancelled, issued reads detached, records released (R135). -/
def closeContext (s : State) (id : Nat) : State :=
  let x := cancelContext s id (fun _ => none)
  releaseMany (detachReads x.1 id) x.2

/-- The entry fails with a reason: pages returned, referrers told, context closed (R112, R135). -/
def failEntry (s : State) (id : Nat) (r : FailReason) : State :=
  let s1 := (returnPages s id).modEntry id (fun e => { e with state := .failed r })
  stampIfUnused (closeContext (tellReferrers s1 id (.failed r)) id) id

/-! ## Conversion (R128) -/

/-- A piece becomes reconstructed, `own` records coming from its lost read: records are gathered from the context's
reserve, then from the FREE pool; short of W − 1 the piece is CONVERTING (R128). -/
def convert (s : State) (id i own : Nat) : State :=
  match pieceOf s id i, s.context id with
  | some q, some c =>
    let need := q.piece.others.length
    let a := min (need - own) c.reserve
    let b := min (need - own - a) s.sched.freeRecords
    let s1 := s.modContext id (fun c => { c with reserve := c.reserve - a })
    let s2 := { s1 with sched := { s1.sched with freeRecords := s1.sched.freeRecords - b } }
    if own + a + b ≥ need then makeSet s2 id i q.piece
    else
      let s3 := modPiece s2 id i (fun q => { q with
        rebuilt := true, status := .converting (own + a + b) s.sched.conversions })
      { s3 with sched := { s3.sched with conversions := s3.sched.conversions + 1 } }
  | _, _ => s

/-- A piece of an entry is reconstructible under the volume it was planned from; none is once that volume has been
dissolved (R41, R134). -/
def rebuildable (s : State) (id : Nat) (p : Piece) : Bool :=
  ((s.entry id).bind Entry.volume).any (fun v => reconstructible s v p)

/-! ## Handing (R126) -/

/-- Hands the first UNHANDED piece of a context when its reserve allows and no piece is CONVERTING; a piece whose members
are not ONLINE is decided as R42 gives. -/
def handOne (s : State) (id : Nat) : Option State :=
  match s.context id with
  | none => none
  | some c =>
    if (oldestIn c).isSome then none
    else
      match c.pieces.findIdx? (fun q => q.status == .unhanded) with
      | none => none
      | some i =>
        match c.pieces[i]? with
        | none => none
        | some q =>
          let need := pieceNeed q.piece q.rebuilt
          if c.reserve < need then none
          else
            let spent := s.modContext id (fun c => { c with reserve := c.reserve - need })
            if q.rebuilt then
              if q.piece.others.all (online s) then some (makeSet spent id i q.piece)
              else some (failEntry s id .noMember)
            else if online s q.piece.member then
              some (modPiece (makeRead spent id i q.piece false q.piece.member) id i
                (fun q => { q with status := .direct }))
            else if rebuildable s id q.piece then some (convert s id i 0)
            else some (failEntry s id .noMember)

/-- A reserve left over when no piece is UNHANDED goes on by R127 steps 3 and 4. -/
def spillReserve (s : State) (id : Nat) : Option State :=
  match s.context id with
  | none => none
  | some c =>
    if c.reserve = 0 ∨ (oldestIn c).isSome ∨ c.pieces.any (fun q => q.status == .unhanded) then none
    else some (releaseMany (s.modContext id (fun c => { c with reserve := 0 })) c.reserve)

/-- One step of handing in some context, the lowest entry first (log 5). -/
def handStep (s : State) : Option State :=
  firstSome (fun c => match handOne s c.1 with
    | some s' => some s'
    | none => spillReserve s c.1) s.sched.contexts

/-! ## Completions and losses -/

/-- How a read ends at the Read Scheduler (7.5): OK with its data, or lost (MEDIUM, LINK, TIMEOUT, or failed with its
member). -/
inductive ReadEnd where
  | ok (data : List Byte)
  | lost
  deriving DecidableEq, Repr

/-- The store-memory address of a delivered byte of an entry (R132). -/
def byteAddress (e : Entry) (d : Nat) : Nat := e.pages.getD (d / Config.pageBytes) 0 * Config.pageBytes + d % Config.pageBytes

/-- Places bytes at delivered offsets from `d` on, written or XORed into those in place (R132). -/
def placeBytes (e : Entry) (xored : Bool) : Nat → List Byte → Memory → Memory
  | _, [], m => m
  | d, b :: bs, m =>
    let a := byteAddress e d
    placeBytes e xored (d + 1) bs (writeByte m a (if xored then readByte m a ^^^ b else b))

/-- Applies a piece's extracts to a read's data (R132). -/
def applyExtracts (e : Entry) (xored : Bool) (data : List Byte) (xs : List Extract) (m : Memory) : Memory :=
  xs.foldl (fun m x => placeBytes e xored x.delivered ((data.drop x.pieceOffset).take x.length) m) m

/-- A read's data placed into its entry's pages (R132). -/
def placeData (s : State) (id : Nat) (xored : Bool) (data : List Byte) (xs : List Extract) : State :=
  match s.entry id with
  | some e => { s with store := { s.store with memory := applyExtracts e xored data xs s.store.memory } }
  | none => s

/-- The entry becomes READY: referrers told, context closed, its leftover reserve released (R112, R132). -/
def readyEntry (s : State) (id : Nat) : State :=
  let s1 := tellReferrers (s.modEntry id (fun e => { e with state := .ready })) id .ready
  stampIfUnused (closeContext s1 id) id

/-- A piece has become COMPLETE: the outstanding count falls; at 0 the entry becomes READY (R112). -/
def completePiece (s : State) (id : Nat) : State :=
  let s1 := s.modEntry id (fun e => { e with outstanding := e.outstanding - 1 })
  match s1.entry id with
  | some e => if e.outstanding = 0 then readyEntry s1 id else s1
  | none => s1

/-- A read that ended OK in a standing context (R132). -/
def readOk (s : State) (r : UnitRead) (q : FillPiece) (data : List Byte) : State :=
  match q.status with
  | .set n placed =>
    let s1 := placeData s r.context placed data q.piece.extracts
    if n ≤ 1 then
      completePiece (releaseWithin (modPiece s1 r.context r.piece (fun q => { q with status := .complete })) r.context)
        r.context
    else releaseWithin (modPiece s1 r.context r.piece (fun q => { q with status := .set (n - 1) true })) r.context
  | _ =>
    let s1 := placeData s r.context false data q.piece.extracts
    completePiece (releaseWithin (modPiece s1 r.context r.piece (fun q => { q with status := .complete })) r.context)
      r.context

/-- A read lost in a standing context (R133): a direct read is rebuilt where it can be; otherwise the entry fails MEDIA. -/
def readLost (s : State) (r : UnitRead) (q : FillPiece) : State :=
  if !r.ofSet && rebuildable s r.context q.piece then convert s r.context r.piece 1
  else releaseMany (failEntry s r.context .media) 1

/-- The ISSUED read under a tag of a member's link (R131). -/
def issuedRead (s : State) (m tag : Nat) : Option UnitRead :=
  s.sched.reads.find? (fun r => r.member == m && (r.issue.map Prod.fst) == some tag)

/-- A link's report of a read's end, handled by its record (R132, R133, R135 to R137). -/
def readEnded (s : State) (m tag : Nat) (how : ReadEnd) : State :=
  match issuedRead s m tag with
  | none => s
  | some r =>
    let s1 := dropRead s r
    if r.detached then releaseMany s1 1
    else
      match s1.context r.context with
      | none => releaseMany s1 1
      | some c =>
        if c.abandoned then
          let s2 := releaseMany s1 1
          if inFlight s2 r.context = 0 then freeEntry (s2.setContext r.context none) r.context else s2
        else
          match c.pieces[r.piece]? with
          | none => releaseMany s1 1
          | some q =>
            match how with
            | .ok data => readOk s1 r q data
            | .lost => readLost s1 r q

/-! ## A member leaving ONLINE (R134) -/

/-- One queued read of the member: taken off the queue and its piece decided. -/
def loseQueued (s : State) (r : UnitRead) : State :=
  let s1 := dropRead s r
  match pieceOf s1 r.context r.piece with
  | some q =>
    if !r.ofSet && rebuildable s1 r.context q.piece then convert s1 r.context r.piece 1
    else releaseMany (failEntry s1 r.context .noMember) 1
  | none => releaseMany s1 1

/-- The member's queue gone through in queue order; `n` bounds the reads. -/
def loseQueue (m : Nat) : Nat → State → State
  | 0, s => s
  | n + 1, s => match queueHead s m with
    | some r => loseQueue m n (loseQueued s r)
    | none => s

/-- Whether a context has a CONVERTING piece whose would-be set includes the member. -/
def Context.wants (c : Context) (m : Nat) : Bool :=
  c.pieces.any (fun q => match q.status with
    | .converting .. => q.piece.others.contains m
    | _ => false)

/-- Every entry with such a piece fails with NO_MEMBER. -/
def failConverting (s : State) (m : Nat) : State :=
  s.sched.contexts.foldl (fun s c =>
    if ((s.context c.1).map (fun x => x.wants m)).getD false then failEntry s c.1 .noMember else s) s

/-- What the Read Scheduler does when a member leaves ONLINE (R134). -/
def leaveOnline (s : State) (m : Nat) : State := failConverting (loseQueue m s.sched.reads.length s) m

/-! ## Issue (R131, R143) -/

/-- The tags of a link in number order. -/
def Link.tagList (l : Link) : List (Nat × TagState) :=
  (List.range Config.tags).map (fun t => (t, tget TagState.free l.tags t))

/-- A BUSY tag. -/
def TagState.isBusy : TagState → Bool
  | .busy .. => true
  | _ => false

/-- A BUSY tag of issue class PIN. -/
def TagState.isBusyPin : TagState → Bool
  | .busy _ .pin => true
  | _ => false

/-- The number of a link's tags that satisfy a test (R155). -/
def Link.countTags (l : Link) (f : TagState → Bool) : Nat := (l.tagList.filter (fun t => f t.2)).length

/-- The lowest-numbered FREE tag (R143). -/
def Link.freeTag (l : Link) : Option Nat := (l.tagList.find? (fun t => t.2 == .free)).map Prod.fst

/-- Issues the head of a member's queue when R131's three conditions hold: the tag becomes BUSY with its expiry, the READ
is sent (R143). -/
def issueOne (s : State) (m : Nat) : Option State :=
  match queueHead s m, (s.link m).freeTag with
  | some r, some t =>
    if !online s m then none
    else if r.cls == .pin && decide ((s.link m).countTags TagState.isBusyPin ≥ 2) then none
    else
      let s1 := { s with sched := { s.sched with
        reads := s.sched.reads.replace r { r with issue := some (t, r.cls) } } }
      let s2 := s1.modLink m (fun l => { l with
        tags := tset TagState.free l.tags t (.busy (s.now + Config.readTicks) r.cls) })
      some (s2.emit (.sendRead m t r.sector r.count))
  | _, _ => none

/-- One issue on some link, the lowest first (log 5). -/
def issueStep (s : State) : Option State := firstSome (issueOne s) (List.range Config.members)

end Sys2Proof.Machine
end

