-- ==== Sys2Proof/Machine/Store.lean ====
section
/-! DEFINITION. The Frame Store (chapter 6): find and admit, the wait list and the grant, release, abandonment and reclaim,
orphans, retries, overload, pins. -/

namespace Sys2Proof.Machine

/-! ## Findable entries -/

/-- An entry is findable when it is in use, not an orphan and not ABANDONED (R106). -/
def Entry.findable (e : Entry) : Bool := !e.orphan && e.state != .abandoned

/-- The findable entry of a key (R106, R108). -/
def findEntry (s : State) (k : Key) : Option Nat :=
  (s.store.entries.find? (fun c => (c.2.map (fun e => e.findable && e.key == k)).getD false)).map Prod.fst

/-! ## The reclaim list (R114) -/

/-- READY or FAILED with no user: on the reclaim list (R113, R114). -/
def Entry.reclaimable (e : Entry) : Bool :=
  e.unused && (match e.state with
    | .ready => true
    | .failed _ => true
    | _ => false)

/-- The section of the reclaim list an entry stands in (R114). -/
def Entry.section (e : Entry) : Nat :=
  if e.orphan then 0 else match e.state with
    | .failed _ => 1
    | _ => 2

/-- The order of the reclaim list: section, then release stamp (R114). -/
def reclaimBefore (a b : Nat × Entry) : Bool :=
  decide (a.2.section < b.2.section ∨ (a.2.section = b.2.section ∧ a.2.stamp < b.2.stamp))

/-- The entries in use that satisfy a test, with their numbers. -/
def entriesWhere (s : State) (f : Entry → Bool) : List (Nat × Entry) :=
  s.store.entries.filterMap (fun c => match c.2 with
    | some e => if f e then some (c.1, e) else none
    | none => none)

/-- The head of the reclaim list (R114). -/
def reclaimHead (s : State) : Option (Nat × Entry) := bestBy reclaimBefore (entriesWhere s Entry.reclaimable)

/-- Reclaims the head entry, if there is one (R114). -/
def reclaimOne (s : State) : State :=
  match reclaimHead s with
  | some (id, _) => freeEntry s id
  | none => s

/-- The pages of the entries on the reclaim list (R123). -/
def reclaimPages (s : State) : Nat := sumOf (fun x => x.2.pages.length) (entriesWhere s Entry.reclaimable)

/-- The available pages: free pages and pages of the reclaim list (R111, R122). -/
def availablePages (s : State) : Nat := s.store.freePages + reclaimPages s

/-! ## Overload (R122) -/

/-- Overload ends: every channel's list is judged for extension (R83, R91, R122). -/
def endOverload (s : State) : State :=
  s.chans.foldl (fun s c => s.modChan c.1 Channel.judged) { s with store := { s.store with overload := false } }

/-- The judgement of overload; none when it stands (R122). -/
def judgeOverload (s : State) : Option State :=
  let a := availablePages s
  if s.store.overload then
    if a ≥ Config.overloadLeave then some (endOverload s) else none
  else if a < Config.overloadEnter then some { s with store := { s.store with overload := true } }
  else none

/-- Overload judged at once, where a command's own effect has changed the reclaim list or the free pages (R122). -/
def overloadJudged (s : State) : State := (judgeOverload s).getD s

/-! ## Creation (R109) -/

/-- A new entry for a key, with no user yet (R106, R109). -/
def newEntry (s : State) (k : Key) (volume : Nat) (loc : Location) (arrival : Nat) : Entry :=
  let h := (s.view k.view).shape
  let base : Entry :=
    { key := k, state := .failed .viewOutside, granted := false, orphan := false, bytes := 0, short := false
      lines := lineAnswer k.view h loc.size, pageNeed := 0, pages := [], pieces := 0, outstanding := 0, recordNeed := 0
      allotment := 0, refs := 0, pins := 0
      transfers := 0, deadlines := [], arrival := arrival, stamp := 0, volume := some volume, loc := loc, place := []
      cleared := false }
  match sizeOf k.view h loc.size with
  | none => base
  | some (bytes, short) =>
    let ps := planOf (s.volume volume) k.view h loc
    { base with
      state := .filling, bytes := bytes, short := short, pageNeed := ceilDiv bytes Config.pageBytes
      pieces := ps.length, outstanding := ps.length, recordNeed := planNeed s volume ps, place := ps }

/-- The next place in the order of arrival on the wait list (R110). -/
def bumpArrivals (s : State) : State := { s with store := { s.store with arrivals := s.store.arrivals + 1 } }

/-- A free entry record, the reclaim list's head reclaimed when there is none (R109, log 6). -/
def freeRecord (s : State) : State × Nat :=
  let id := firstGap 0 s.store.entries
  if id < Config.entryRecords then (s, id)
  else
    let s1 := reclaimOne s
    (s1, firstGap 0 s1.store.entries)

/-- Finds the entry of a key or creates it, as yet without the user's count (R108, R109). -/
def findOrAdmit (s : State) (k : Key) (volume : Nat) (loc : Location) : State × Nat :=
  match findEntry s k with
  | some id => (s, id)
  | none =>
    let x := freeRecord s
    (bumpArrivals (x.1.setEntry x.2 (some (newEntry s k volume loc s.store.arrivals))), x.2)

/-- A list entry's reference is added (R107); an entry found on the reclaim list leaves it (R113), so overload is judged
(R122). -/
def addRef (s : State) (id : Nat) : State := overloadJudged (s.modEntry id (fun e => { e with refs := e.refs + 1 }))
/-- A pin's count is added (R107); an entry found on the reclaim list leaves it (R113), so overload is judged (R122). -/
def addPin (s : State) (id : Nat) : State := overloadJudged (s.modEntry id (fun e => { e with pins := e.pins + 1 }))
/-- A transfer hold is placed (R98, R107), on an entry that its list entry keeps off the reclaim list (R113). -/
def addHold (s : State) (id : Nat) : State := s.modEntry id (fun e => { e with transfers := e.transfers + 1 })

/-- The status of a list entry that refers to a store entry (R80, R81). -/
def Entry.status (e : Entry) : ListStatus :=
  match e.state with
  | .ready => .ready
  | .filling => if e.granted then .filling else .waiting
  | .failed r => .failed r
  | .abandoned => .waiting

/-! ## Release (R113, R115) -/

/-- A GRANTED FILLING entry with no reference and no pin is abandoned (R115, R136). -/
def abandon (s : State) (id : Nat) : State :=
  let x := cancelContext (returnPages s id) id (Option.map (fun _ => (⟨[], 0, true⟩ : Context)))
  let s1 := releaseMany x.1 x.2
  if inFlight s1 id = 0 then freeEntry (s1.setContext id none) id
  else s1.modEntry id (fun e => { e with state := .abandoned })

/-- The entry's place is settled once a count of it has fallen (R113); an entry SERVICE_CLEAR has left is freed (R124). -/
def settlePlace (s : State) (id : Nat) : State :=
  match s.entry id with
  | none => s
  | some e =>
    match e.state with
    | .filling => if e.refs = 0 ∧ e.pins = 0 then (if e.granted then abandon s id else freeEntry s id) else s
    | .abandoned => s
    | _ => if e.unused then (if e.cleared then freeEntry s id else stampEntry s id) else s

/-- A count of the entry falls: its place is settled (R113), and overload judged on the pages that leaves available (R122). -/
def lowerCount (s : State) (id : Nat) (f : Entry → Entry) : State := overloadJudged (settlePlace (s.modEntry id f) id)

/-- A list entry's reference is released (R84, R107). -/
def releaseRef (s : State) (id : Nat) : State := lowerCount s id (fun e => { e with refs := e.refs - 1 })
/-- A pin's count is released (R107). -/
def releasePin (s : State) (id : Nat) : State := lowerCount s id (fun e => { e with pins := e.pins - 1 })
/-- A transfer hold is released (R99, R107). -/
def releaseHold (s : State) (id : Nat) : State := lowerCount s id (fun e => { e with transfers := e.transfers - 1 })

/-! ## The wait list and the grant (R110, R111) -/

/-- A WAITING entry (R106). -/
def Entry.waiting (e : Entry) : Bool := e.state == .filling && !e.granted

/-- An earlier deadline comes first; none comes last (R110). -/
def deadlineBefore (a b : Option Int) : Bool :=
  match a, b with
  | some x, some y => decide (x < y)
  | some _, none => true
  | none, _ => false

/-- The order of the wait list (R110). -/
def waitBefore (a b : Nat × Entry) : Bool :=
  if a.2.cls ≠ b.2.cls then a.2.cls == .playout
  else if a.2.deadline ≠ b.2.deadline then deadlineBefore a.2.deadline b.2.deadline
  else decide (a.2.arrival < b.2.arrival)

/-- The head of the allocation wait list (R110). -/
def waitHead (s : State) : Option (Nat × Entry) := bestBy waitBefore (entriesWhere s Entry.waiting)

/-- Reclaims from the head of the reclaim list while fewer than `need` pages are free; `n` bounds the entries (R111). -/
def reclaimFor (need : Nat) : Nat → State → State
  | 0, s => s
  | n + 1, s => if s.store.freePages < need then reclaimFor need n (reclaimOne s) else s

/-- The lowest `n` page numbers from `p` on that are not held (log 6). -/
def pickPages (held : List Nat) : Nat → Nat → Nat → List Nat
  | 0, _, _ => []
  | _, _, 0 => []
  | fuel + 1, p, n + 1 =>
    if held.contains p then pickPages held fuel (p + 1) (n + 1) else p :: pickPages held fuel (p + 1) n

/-- The pages held by all entries. -/
def heldPages (s : State) : List Nat := (entriesWhere s (fun _ => true)).flatMap (fun x => x.2.pages)

/-- Free pages in the number wanted (R105). -/
def choosePages (s : State) (need : Nat) : List Nat :=
  let held := heldPages s
  pickPages held (need + held.length) 0 need

/-- The grant: pages and records taken, the fill context opened, referrers told (R111 step 6, R126). -/
def makeGrant (s : State) (id : Nat) (e : Entry) (kinds : List FillPiece) (allot : Nat) : State :=
  let s1 := reclaimFor e.pageNeed s.store.entries.length s
  let s2 := s1.setEntry id (some { e with
    granted := true, pages := choosePages s1 e.pageNeed, recordNeed := needOf kinds, allotment := allot })
  let s3 := { s2 with
    store := { s2.store with freePages := s2.store.freePages - e.pageNeed }
    sched := { s2.sched with freeRecords := s2.sched.freeRecords - allot } }
  tellReferrers (s3.setContext id (some ⟨kinds, allot, false⟩)) id .filling

/-- A waiting entry fails at the grant with NO_MEMBER (R111 step 4). -/
def failWaiting (s : State) (id : Nat) : State :=
  stampIfUnused (tellReferrers (s.modEntry id (fun e => { e with state := .failed .noMember })) id (.failed .noMember)) id

/-- One judging of the head of the wait list; none when it ends without a change (R111). -/
def grantHead (s : State) : Option State :=
  match waitHead s with
  | none => none
  | some (id, e) =>
    if s.store.overload && e.cls == .pin then none
    else if availablePages s < e.pageNeed ∨ s.sched.freeRecords < min e.recordNeed Config.maxAllotment then none
    else
      match grantAnswer s e.volume e.place with
      | none => some (failWaiting s id)
      | some kinds =>
        let allot := min (needOf kinds) Config.maxAllotment
        if s.sched.freeRecords < allot then some (s.modEntry id (fun e => { e with recordNeed := needOf kinds }))
        else some (makeGrant s id e kinds allot)

/-! ## Orphans (R116) -/

/-- Every entry in use that satisfies a test on its key becomes an orphan (R116). -/
def orphanWhere (s : State) (f : Key → Bool) : State :=
  let mark : Entry → Entry := fun e => if f e.key then { e with orphan := true } else e
  { s with store := { s.store with entries := tmap (fun _ o => o.map mark) s.store.entries } }

/-- A serial has left the map (R16, R116). -/
def orphanSerial (s : State) (n : Nat) : State := orphanWhere s (fun k => k.serial == n)

/-- A view has changed (R28, R116). -/
def orphanView (s : State) (v : Nat) : State := orphanWhere s (fun k => k.view == v)

/-- A volume has been dissolved: entries planned from it have no volume from now on, though its number be defined anew (R41,
R121, R159). -/
def forgetVolume (s : State) (v : Nat) : State :=
  let forget : Entry → Entry := fun e => if e.volume = some v then { e with volume := none } else e
  { s with store := { s.store with entries := tmap (fun _ o => o.map forget) s.store.entries } }

/-! ## A member enters ONLINE (R117) -/

/-- FAILED with reason MEDIA or NO_MEMBER (R117). -/
def Entry.lostMember (e : Entry) : Bool := e.state == .failed .media || e.state == .failed .noMember

/-- A pinned entry returns to FILLING and WAITING with its plan on its volume renewed (R117). An entry whose volume is gone is
an orphan, and no orphan is retried. -/
def retryEntry (s : State) (id : Nat) (e : Entry) : State :=
  match e.volume with
  | some v =>
    let n := newEntry s e.key v e.loc s.store.arrivals
    bumpArrivals (s.setEntry id (some { n with pins := e.pins }))
  | none => s

/-- What one entry meets when a member enters ONLINE (R117). -/
def retryOne (s : State) (x : Nat × Entry) : State :=
  if !x.2.lostMember then s
  else if x.2.unused then freeEntry s x.1
  else if x.2.refs = 0 ∧ x.2.pins > 0 ∧ !x.2.orphan then retryEntry s x.1 x.2
  else s

/-- The Frame Store is told that a member has entered ONLINE (R117); the lowest entry record goes first (log 40). -/
def memberOnline (s : State) : State := (entriesWhere s Entry.lostMember).foldl retryOne s

/-! ## Pins (R118 to R121) -/

/-- The pinned page total (R118). -/
def pinnedPages (s : State) : Nat := sumOf (fun x => x.2.pageNeed) (entriesWhere s (fun e => decide (e.pins > 0)))

/-- The pinned entry total (R118). -/
def pinnedEntries (s : State) : Nat := (entriesWhere s (fun e => decide (e.pins > 0))).length

/-- Whether a pinned page total and a pinned entry total are within their limits (R118). -/
def pinLimits (pages entries : Nat) : Bool :=
  decide (pages ≤ Config.maxPinnedPages ∧ entries ≤ Config.maxPinnedEntries)

/-- The page need of a frame of a size under a view; 0 for VIEW_OUTSIDE (R106, R119). -/
def framePages (s : State) (view size : Nat) : Nat :=
  match sizeOf view (s.view view).shape size with
  | some (b, _) => ceilDiv b Config.pageBytes
  | none => 0

/-- The key, location and page need of a frame a pin would cover; none unless PRESENT (R119). -/
def pinWant (s : State) (clip view f : Nat) : Option (Key × Location × Nat) :=
  match lookup s clip f with
  | .present n i a z => some (⟨n, i, view⟩, ⟨a, z⟩, framePages s view z)
  | _ => none

/-- Whether the entry of a key is already pinned (R119). -/
def alreadyPinned (s : State) (k : Key) : Bool :=
  match (findEntry s k).bind s.entry with
  | some e => decide (e.pins > 0)
  | none => false

/-- The wants of a range that no pin covers yet (R119). -/
def newWants (s : State) (clip view first count : Nat) : List (Key × Location × Nat) :=
  ((List.range count).filterMap (fun i => pinWant s clip view (first + i))).filter (fun w => !alreadyPinned s w.1)

/-- The pin covers a frame: its entry, if the frame is PRESENT, is found or admitted (R119, R120). -/
def coverFrame (s : State) (p f : Nat) : State :=
  let q := s.pin p
  match pinWant s q.clip q.view f with
  | none => s
  | some (k, loc, _) =>
    let x := findOrAdmit s k (s.clip q.clip).volume loc
    (addPin x.1 x.2).setPin p { q with covered := insertBy (fun a b => decide (a.1 < b.1)) (f, x.2) q.covered }

/-- The pin covers several frames, the lowest first, which is then the order in which new entries arrive on the wait list
(R119, R120; the order: log 40). -/
def coverFrames (s : State) (p : Nat) (fs : List Nat) : State := fs.foldl (fun s f => coverFrame s p f) s

/-- The pin lets go of the frames that satisfy a test, the lowest first, which is then the order of their release stamps
(R120, R121; the order: log 40). -/
def uncover (s : State) (p : Nat) (f : Nat → Bool) : State :=
  let q := s.pin p
  let s1 := s.setPin p { q with covered := q.covered.filter (fun x => !f x.1) }
  (q.covered.filter (fun x => f x.1)).foldl (fun s x => releasePin s x.2) s1

/-- The pin releases its highest held frame while a total exceeds its limit; `n` bounds the frames (R120 step 3). -/
def truncatePin (p : Nat) : Nat → State → State
  | 0, s => s
  | n + 1, s =>
    if pinLimits (pinnedPages s) (pinnedEntries s) then s
    else
      let q := s.pin p
      let top := q.first + q.held - 1
      let s1 := s.setPin p { q with held := q.held - 1, state := .part }
      truncatePin p n (uncover s1 p (fun f => f == top))

/-- The held frames of a pin that lie in a group (R120). -/
def pinFramesIn (q : Pin) (g : Nat) : List Nat :=
  ((List.range 64).map (fun i => 64 * g + i)).filter (fun f => decide (q.first ≤ f ∧ f < q.first + q.held))

/-- The refill of one pin after a group write (R120). -/
def refillPin (g : Nat) (s : State) (p : Nat) : State :=
  let fs := pinFramesIn (s.pin p) g
  let s1 := coverFrames (uncover s p (fun f => fs.contains f)) p fs
  truncatePin p (s.pin p).held s1

/-- The pins a changed group reaches: FULL or PARTIAL, of the clip, holding a frame of the group (R120). -/
def pinReached (clip g : Nat) (q : Pin) : Bool :=
  (q.state == .full || q.state == .part) && q.clip == clip && !(pinFramesIn q g).isEmpty

/-- The hand-off of a changed group to the pins, in pin order (R16 step 2, R120). -/
def refillPins (s : State) (clip g : Nat) : State :=
  (List.range Config.pins).foldl (fun s p => if pinReached clip g (s.pin p) then refillPin g s p else s) s

/-- The hand-off of a freed clip: pins naming it lapse (R22, R121). -/
def lapsePins (s : State) (clip : Nat) : State :=
  let lapse : Pin → Pin := fun q => if q.clip = clip ∧ q.state ≠ .free then { q with state := .lapsed } else q
  { s with store := { s.store with pins := tmap (fun _ q => lapse q) s.store.pins } }

/-- The lowest FREE pin (R119). -/
def freePin (s : State) : Option Nat := (List.range Config.pins).find? (fun p => (s.pin p).state == .free)

/-! ## Service clear (R124, R138) -/

/-- What SERVICE_CLEAR leaves of an entry: one under a transfer hold stays, an orphan with no other user (R124). -/
def clearEntry (o : Option Entry) : Option Entry :=
  o.bind (fun e => if e.transfers = 0 then none
    else some { e with orphan := true, refs := 0, pins := 0, deadlines := [], cleared := true })

/-- The pages an entry record holds. -/
def pagesOf (o : Option Entry) : Nat := (o.map (fun e => e.pages.length)).getD 0

/-- SERVICE_CLEAR at the Frame Store (R124); overload stands only when the pages still held keep fewer than 16,384 available
(R122). -/
def clearStore (s : State) : State :=
  let kept := (tmap (fun _ o => clearEntry o) s.store.entries).filter (fun c => c.2 ≠ none)
  let back := sumOf (fun c => pagesOf c.2) s.store.entries - sumOf (fun c => pagesOf c.2) kept
  let free := s.store.freePages + back
  { s with store := { s.store with
      entries := kept, pins := [], freePages := free
      overload := s.store.overload && decide (free < Config.overloadEnter) } }

/-- The HELD records of every context: reserves and gathered records. -/
def heldRecords (s : State) : Nat := sumOf (fun c => (c.2.map Context.heldRecords).getD 0) s.sched.contexts

/-- SERVICE_CLEAR at the Read Scheduler (R138). -/
def clearSched (s : State) : State :=
  let issued := s.sched.reads.filter (fun r => r.issue.isSome)
  { s with sched := { s.sched with
      reads := issued.map (fun r => { r with detached := true })
      contexts := []
      freeRecords := s.sched.freeRecords + (s.sched.reads.length - issued.length) + heldRecords s } }

end Sys2Proof.Machine
end

