-- ==== Sys2Proof/Machine/ReadAhead.lean ====
section
/-! DEFINITION. The read-ahead list (4.3): depth and deadlines, recomputation (R85), resolution (R80), extension (R83), the
re-resolution of a group (R64), and the deadlines handed to the store and the queues (R86, R107, R130). An entry still to be
resolved is WAITING without a store reference; `settle` resolves it in the same event. -/

namespace Sys2Proof.Machine

/-! ## Entries -/

/-- The last period of an entry; none for an unbounded run (R78). -/
def ListEntry.lastPeriod (e : ListEntry) : Option Word32 := e.run.map (fun r => addPeriods e.first (r - 1))

/-- Every period of the entry lies before `n`. -/
def ListEntry.endsBefore (e : ListEntry) (n : Word32) : Bool :=
  match e.lastPeriod with
  | some p => later n p
  | none => false

/-- The entry begins before `n`. -/
def ListEntry.beginsBefore (e : ListEntry) (n : Word32) : Bool := later n e.first

/-- The entry covers period `n`. -/
def ListEntry.covers (e : ListEntry) (n : Word32) : Bool := !later e.first n && !e.endsBefore n

/-- The entry cut to end before `n` (R85). -/
def ListEntry.cutAt (e : ListEntry) (n : Word32) : ListEntry := { e with run := some (periodsAfter n e.first) }

/-- An entry not yet resolved. -/
def ListEntry.unresolved (e : ListEntry) : Bool := e.status == .waiting && e.ref == none

/-- The first unwritten period of an entry, if it has one (R82). -/
def Channel.unwrittenIn (ch : Channel) (e : ListEntry) : Option Word32 :=
  let n := ch.firstUnwritten
  if e.endsBefore n then none else some (if later n e.first then n else e.first)

/-- The depth of a channel's list (R82). -/
def Channel.depth (ch : Channel) : Nat := (ch.list.filter (fun e => (ch.unwrittenIn e).isSome)).length

/-- The deadline an entry gives (R86). DESIGN CHOICE: where the lead margin exceeds the due time it is the negative difference,
on which R86 and R125, which calls a deadline a house time, are silent (log 56). -/
def Channel.deadlineOf (ch : Channel) (e : ListEntry) : Option Int :=
  ((ch.unwrittenIn e).bind ch.dueOf).map (fun t => (t : Int) - ch.leadMargin)

/-- The list entry covering a period. -/
def Channel.entryAt (ch : Channel) (n : Word32) : Option ListEntry := ch.list.find? (fun e => e.covers n)

/-! ## Recomputation (R85) -/

/-- The four kinds of recomputation (R85). -/
inductive Recompute where
  | cue | trim | rebuild | afterRevoke
  deriving DecidableEq, Repr

/-- An old entry from `n` on is taken over by a new one (R85). -/
def Recompute.takes (k : Recompute) (n : Word32) (new old : ListEntry) : Bool :=
  match k with
  | .cue => new.frame == old.frame && new.first == old.first && new.run == old.run
  | .trim => new.frame == old.frame
  | .rebuild => new.first == n && old.covers n && new.frame == old.frame
  | .afterRevoke => new.frame == old.frame && new.first == old.first && new.run == old.run

/-- The first element a test accepts, and the others. -/
def takeFirst {α : Type} (f : α → Bool) : List α → Option (α × List α)
  | [] => none
  | a :: l => if f a then some (a, l) else (takeFirst f l).map (fun x => (x.1, a :: x.2))

/-- New entries take over old ones, in period order, each old one at most once; gives the entries and the old ones left. -/
def adopt (takes : ListEntry → ListEntry → Bool) : List ListEntry → List ListEntry → List ListEntry × List ListEntry
  | [], old => ([], old)
  | e :: es, old =>
    match takeFirst (takes e) old with
    | some (o, rest) =>
      let x := adopt takes es rest
      ({ e with status := o.status, ref := o.ref } :: x.1, x.2)
    | none =>
      let x := adopt takes es old
      (e :: x.1, x.2)

/-- A new entry from a cursor on, not yet resolved (R79). -/
def Course.entry (k : Course) (c : Cursor) : ListEntry := ⟨frameOf c.pos, c.period, (k.run c).1, .waiting, none⟩

/-- Whether a period lies within the span the old list covered; none is a span without end. -/
def withinSpan (stop : Option Word32) (n : Word32) : Bool :=
  match stop with
  | some p => !later n p
  | none => true

/-- What one more entry leaves of the depth still wanted: an entry with no unwritten period adds nothing to the depth (R82). -/
def Channel.depthLeft (ch : Channel) (e : ListEntry) (left : Option Nat) : Option Nat :=
  if (ch.unwrittenIn e).isSome then left.map (fun n => n - 1) else left

/-- The entries from a cursor on, at most so many, for as long as they begin within the span and depth is still wanted
(R85). -/
def Course.entries (k : Course) (ch : Channel) (stop : Option Word32) : Nat → Option Nat → Cursor → List ListEntry
  | 0, _, _ => []
  | n + 1, left, c =>
    if withinSpan stop c.period ∧ left ≠ some 0 then
      k.entry c :: (match (k.run c).2 with
        | some d => Course.entries k ch stop n (ch.depthLeft (k.entry c) left) d
        | none => [])
    else []

/-- The depth a recomputation may still add after `pre`: to the target where the span has no end, else as much as the span
gives (R85). -/
def depthWanted (s : State) (ch : Channel) (pre : List ListEntry) (stop : Option Word32) : Option Nat :=
  match stop with
  | some _ => none
  | none => some (depthTarget s ch - ({ ch with list := pre }).depth)

/-- The new entries after `pre`, from a cursor, taking over from `old` (R85). -/
def freshEntries (s : State) (ch : Channel) (kind : Recompute) (n : Word32) (pre : List ListEntry)
    (stop : Option Word32) (c : Option Cursor) (old : List ListEntry) : List ListEntry × List ListEntry :=
  let fresh := match c with
    | some c => (courseOf s ch).entries ch stop (Config.maxList - pre.length) (depthWanted s ch pre stop) c
    | none => []
  let x := adopt (kind.takes n) fresh old
  (pre ++ x.1, x.2)

/-- The list recomputed from period `n`, and the old entries released (R85). Where R78 or R79 says otherwise of an entry begun
before `n`, R85 is followed: its run is computed anew though all its periods have records, and it is cut though the entry after
it shows its frame too (log 48). -/
def rebuildList (s : State) (ch : Channel) (kind : Recompute) (n : Word32) : List ListEntry × List ListEntry :=
  let pre := ch.list.filter (fun e => e.endsBefore n)
  match ch.list.filter (fun e => !e.endsBefore n) with
  | [] => (ch.list, [])
  | e :: es =>
    let stop := (es.getLast?.getD e).lastPeriod
    let at? := cursorOf s ch n
    if e.beginsBefore n then
      match at? with
      | none => (pre ++ [e.cutAt n], es)
      | some c =>
        if frameOf c.pos = e.frame then
          let x := (courseOf s ch).run c
          let kept := { e with run := x.1.map (fun r => periodsAfter n e.first + r) }
          freshEntries s ch kind n (pre ++ [kept]) stop (if x.1.isSome then x.2 else none) es
        else freshEntries s ch kind n (pre ++ [e.cutAt n]) stop (some c) es
    else freshEntries s ch kind n pre stop at? (e :: es)

/-- The store references of list entries are released (R84). DESIGN CHOICE: where one event releases several entries of a list,
the first of the list goes first, on which R84, R85 and R113 are silent; their release stamps rise in that order (log 53). -/
def releaseEntries (s : State) (es : List ListEntry) : State :=
  es.foldl (fun s e => match e.ref with
    | some id => releaseRef s id
    | none => s) s

/-- Sets a channel's list, by an extension or in an event in which extension is judged (R83). -/
def setList (s : State) (c : Nat) (l : List ListEntry) : State := s.modChan c (fun ch => { ch.judged with list := l })

/-- The recomputation of a channel's list from period `n` (R85). -/
def recompute (s : State) (c : Nat) (kind : Recompute) (n : Word32) : State :=
  let x := rebuildList s (s.chan c) kind n
  releaseEntries (setList s c x.1) x.2

/-- Every entry of a channel's list is released (R50, R67, R68). -/
def releaseList (s : State) (c : Nat) : State :=
  releaseEntries (setList s c []) (s.chan c).list

/-- Entries whose last period is `n` or earlier are removed and released (R84). -/
def dropPassed (s : State) (c : Nat) (n : Word32) : State :=
  let l := (s.chan c).list
  releaseEntries (setList s c (l.filter (fun e => !e.endsBefore (n + 1)))) (l.filter (fun e => e.endsBefore (n + 1)))

/-! ## Resolution (R80) -/

/-- One entry of a channel's list changed. -/
def modList (s : State) (c i : Nat) (f : ListEntry → ListEntry) : State :=
  s.modChan c (fun ch => { ch with list := modAt f i ch.list })

/-- Whether a frame of a size is OVERSIZE for a channel: delivered bytes above its slot bytes (R80). -/
def oversize (s : State) (ch : Channel) (size : Nat) : Bool :=
  let v := ch.view.getD 0
  match sizeOf v (s.view v).shape size with
  | some (b, _) => decide (b > ch.slotBytes)
  | none => false

/-- The status of a store entry's referrer. -/
def statusOf (s : State) (id : Nat) : ListStatus := ((s.entry id).map Entry.status).getD .waiting

/-- The entry at place `i` of a channel's list is resolved (R80). -/
def resolveAt (s : State) (c i : Nat) : State :=
  let ch := s.chan c
  match ch.list[i]? with
  | none => s
  | some e =>
    match lookup s ch.clip e.frame with
    | .present n x a z =>
      if oversize s ch z then modList s c i (fun e => { e with status := .oversize })
      else
        let r := findOrAdmit s ⟨n, x, ch.view.getD 0⟩ (s.clip ch.clip).volume ⟨a, z⟩
        let s1 := addRef r.1 r.2
        modList s1 c i (fun e => { e with ref := some r.2, status := statusOf s1 r.2 })
    | _ => modList s c i (fun e => { e with status := .absent })

/-- Resolves one unresolved entry, the lowest channel's first (log 5). -/
def resolveStep (s : State) : Option State :=
  firstSome (fun c => (c.2.list.findIdx? ListEntry.unresolved).map (resolveAt s c.1)) s.chans

/-! ## Extension (R83) -/

/-- The states in which a list is extended (R83). -/
def ChanState.extends : ChanState → Bool
  | .cueing => true
  | .cued => true
  | .running => true
  | _ => false

/-- The cursor of the period after the list's last; none after an unbounded run and at the end period (R83). -/
def afterList (s : State) (ch : Channel) : Option Cursor :=
  match ch.list.getLast? with
  | none => some ch.due
  | some e =>
    match e.lastPeriod with
    | none => none
    | some p => if later ch.dueIndex p then some ch.due else (cursorOf s ch p).bind (courseOf s ch).next

/-- Appends an entry; one that shows the last entry's frame lengthens that entry's run instead (R78, log 14). -/
def appendEntry (l : List ListEntry) (e : ListEntry) : List ListEntry :=
  match l.getLast? with
  | some o =>
    if o.frame = e.frame then
      l.dropLast ++ [{ o with run := match o.run, e.run with
        | some a, some b => some (a + b)
        | _, _ => none }]
    else l ++ [e]
  | none => [e]

/-- One extension of a channel's list; none when it has stopped, or stands since its clip began to grow (R83, log 14). -/
def extendOne (s : State) (c : Nat) (ch : Channel) : Option State :=
  if ch.state.extends && !ch.listStands && decide (ch.depth < depthTarget s ch) &&
      decide (ch.list.length < Config.maxList) then
    (afterList s ch).map (fun d => setList s c (appendEntry ch.list ((courseOf s ch).entry d)))
  else none

/-- One extension of some channel's list, the lowest first (log 5). -/
def extendStep (s : State) : Option State := firstSome (fun c => extendOne s c.1 (s.chan c.1)) s.chans

/-- Extensions of a channel's list until it stops; the first argument bounds them (R83). -/
def extendFor (c : Nat) : Nat → State → State
  | 0, s => s
  | n + 1, s =>
    match extendOne s c (s.chan c) with
    | some s1 => extendFor c n s1
    | none => s

/-! ## Re-resolution of a group (R64) -/

/-- Whether a frame lies in group g (R6). -/
def inGroup (g f : Nat) : Bool := f / 64 == g

/-- An entry of the group made ready to be resolved anew; one begun before the due index is replaced by one from it
(R64). -/
def refreshEntry (due : Word32) (e : ListEntry) : ListEntry :=
  if e.beginsBefore due then
    { e with first := due, run := e.run.map (fun r => r - periodsAfter due e.first), status := .waiting, ref := none }
  else { e with status := .waiting, ref := none }

/-- The entries of a channel's list for frames of a group drop their references and are resolved again (R64 step 1). One
that a recomputation has cut to end before the due index is removed with them: no period is left for an entry in its place
(log 42). It is no event in which extension is judged (R83). -/
def reresolveGroup (s : State) (c g : Nat) : State :=
  let ch := s.chan c
  let stay := ch.list.filter (fun e => !(inGroup g e.frame && e.endsBefore ch.dueIndex))
  let l := stay.map (fun e => if inGroup g e.frame then refreshEntry ch.dueIndex e else e)
  releaseEntries (s.modChan c (fun ch => { ch with list := l })) (ch.list.filter (fun e => inGroup g e.frame))

/-- The earliest period at or after the due index that shows a frame of the group and has a record standing (R64). -/
def firstRecordIn (ch : Channel) (g : Nat) : Option Word32 :=
  (ch.list.filter (fun e => inGroup g e.frame && !e.endsBefore ch.dueIndex)).findSome? (fun e =>
    let n := if e.beginsBefore ch.dueIndex then ch.dueIndex else e.first
    if ch.recordFrom n then some n else none)

/-! ## Deadlines handed on (R86, R107, R130) -/

/-- Every deadline the lists give, with the store entry it is for (R86). -/
def deadlinesGiven (s : State) : List (Nat × Int) :=
  s.chans.flatMap (fun c => c.2.list.filterMap (fun e => match e.ref, c.2.deadlineOf e with
    | some id, some d => some (id, d)
    | _, _ => none))

/-- An entry's deadlines as its referrers give them now (R107). -/
def withDeadlines (g : List (Nat × Int)) (id : Nat) (e : Entry) : Entry :=
  { e with deadlines := (g.filter (fun x => x.1 == id)).map Prod.snd }

/-- A QUEUED read takes its entry's class and deadline (R130). -/
def UnitRead.refresh (s : State) (r : UnitRead) : UnitRead :=
  if r.issue.isSome ∨ r.detached then r
  else match s.entry r.context with
    | some e => { r with cls := e.cls, deadline := e.deadline }
    | none => r

/-- The store's entries and the queues take the deadlines and classes that now stand (R86, R107, R130). -/
def refreshUrgency (s : State) : State :=
  let g := deadlinesGiven s
  let entries := tmap (fun id o => o.map (withDeadlines g id)) s.store.entries
  let s1 := { s with store := { s.store with entries := entries } }
  { s1 with sched := { s1.sched with reads := s1.sched.reads.map (UnitRead.refresh s1) } }

end Sys2Proof.Machine
end

