-- ==== Sys2Proof/Machine/Delivery.lean ====
section
/-! DEFINITION. The Delivery Engine (chapter 5): slots, records, transfers, REVOKEs, and what a channel's period calls for
(R87). -/

namespace Sys2Proof.Machine

/-! ## Slots (R93, R94) -/

/-- Slots with the host: published and not returned (R93). -/
def Ring.hostHeld (r : Ring) : Nat := (r.produce - r.returned).toNat

/-- Free slots (R93). -/
def Ring.free (r : Ring) : Nat := r.slotCount - r.hostHeld - r.taken

/-- The address of a slot's data buffer (R93); past 2^64 it is reduced modulo 2^64 (log 50). -/
def Ring.bufferAddress (r : Ring) (slot : Nat) : Word64 := BitVec.ofNat 64 (r.base + slot * r.slotBytes)

/-- The address of a slot's record (R93); past 2^64 it is reduced modulo 2^64 (log 50). -/
def Ring.recordAddress (r : Ring) (slot : Nat) : Word64 := BitVec.ofNat 64 (r.recordArea + 32 * slot)

/-- The address of the produce word, after the last record (R93, R189; past 2^64: log 50). -/
def Ring.produceAddress (r : Ring) : Word64 := r.recordAddress r.slotCount

/-- Changes a channel's ring. -/
def State.modRing (s : State) (c : Nat) (f : Ring → Ring) : State := s.setRing c (f (s.ring c))

/-- The next slot in ring order is taken; the gap count returns to 0 (R94). -/
def Ring.advance (r : Ring) : Ring := { r with nextSlot := (r.nextSlot + 1) % r.slotCount, gap := 0 }

/-- One taken slot is published: the produce count rises and the produce word is written (R94). -/
def publishOne (c : Nat) (s : State) : State :=
  let r := s.ring c
  (s.setRing c { r with produce := r.produce + 1, taken := r.taken - 1 }).emit
    (.produceWord r.produceAddress (r.produce + 1))

/-- A record without data takes the next slot, with the gap count as its gap; it is published at once unless a transfer's
slot lies before it (R94, R100, R101). -/
def writeNoData (s : State) (c : Nat) (d : Record) : State :=
  let r := s.ring c
  let s1 := (s.setRing c { r.advance with taken := r.taken + 1 }).emit
    (.record (r.recordAddress r.nextSlot) { d with gap := r.gap })
  if r.transfer.isSome then s1 else publishOne c s1

/-! ## Records (R87, R95) -/

/-- The low 32 bits of a period's due time (R95). -/
def Channel.dueLow (ch : Channel) (n : Word32) : Nat := ((ch.dueOf n).getD 0) % 4294967296

/-- The record of a period of a channel; its gap is set when it takes its slot (R95). Its frame and flags are the period's own by
the course, though the entry that gives the bytes be an older one (DESIGN CHOICE, log 52). -/
def periodRecord (s : State) (ch : Channel) (kind : RecordKind) (reason : MissReason) (short : Bool) (bytes : Nat)
    (c : Cursor) : Record where
  kind := kind
  reason := reason
  last := ((courseOf s ch).next c).isNone
  edge := c.edge
  shortView := short
  clip := ch.clip
  gap := 0
  period := c.period
  frame := frameOf c.pos
  byteCount := bytes
  due := ch.dueLow c.period

/-- A FRAME or REPEAT of the same entry stands for the period before `n`: written ahead, or, before the due index, as last
settled (R87, log 15). -/
def Channel.shownBefore (ch : Channel) (n : Word32) : Bool := if n = ch.dueIndex then ch.priorShown else true

/-- Period `n` of an entry calls for a REPEAT (R87). -/
def Channel.callsRepeat (ch : Channel) (e : ListEntry) (n : Word32) : Bool := e.beginsBefore n && ch.shownBefore n

/-- ABSENT, FAILED and OVERSIZE entries have no record before the due time (R87). -/
def ListStatus.lost : ListStatus → Bool
  | .absent => true
  | .oversize => true
  | .failed _ => true
  | _ => false

/-- Whether the store entry of a list entry has a short view (R33, R95). -/
def shortOf (s : State) (e : ListEntry) : Bool := ((e.ref.bind s.entry).map Entry.short).getD false

/-- A period counts as written from now on: the last record period is set (R87), and extension is judged (R83). -/
def markWritten (s : State) (c : Nat) (n : Word32) : State :=
  s.modChan c (fun ch => { ch.judged with lastRecord := some n })

/-- A REPEAT for the period of a cursor (R100). -/
def writeRepeat (s : State) (c : Nat) (e : ListEntry) (p : Cursor) : State :=
  markWritten (writeNoData s c (periodRecord s (s.chan c) .again .none (shortOf s e) 0 p)) c p.period

/-- A MISS for the period of a cursor (R100). -/
def writeMiss (s : State) (c : Nat) (reason : MissReason) (p : Cursor) : State :=
  markWritten (writeNoData s c (periodRecord s (s.chan c) .miss reason false 0 p)) c p.period

/-- The waiting REVOKE is written (R101). -/
def writeRevoke (s : State) (c : Nat) (v : Revoke) : State :=
  let d : Record := ⟨.revoke, .none, false, false, false, v.clip, 0, v.period, 0, 0, v.due⟩
  (writeNoData s c d).modRing c (fun r => { r with revoke := none })

/-- A transfer begins: slot taken, record fixed, hold placed, period written (R98). -/
def beginTransfer (s : State) (c id : Nat) (x : Entry) (p : Cursor) : State :=
  let r := s.ring c
  let d := periodRecord s (s.chan c) .frame .none x.short x.bytes p
  let s1 := s.setRing c { r.advance with
    taken := r.taken + 1, transfer := some ⟨id, r.nextSlot, { d with gap := r.gap }, false⟩ }
  markWritten (addHold s1 id) c p.period

/-! ## What can be written now (R97) -/

/-- A transfer in flight bars the record of every later period (R97, log 23). One whose period a REVOKE has voided does not bar
the periods up to its own, whose records come anew. -/
def Ring.bars (r : Ring) (n : Word32) : Bool :=
  match r.transfer with
  | some t => later n t.record.period
  | none => false

/-- The transfer of an entry's data begins, where the entry is READY and none is in flight (R98). -/
def beginIfReady (s : State) (c : Nat) (e : ListEntry) (p : Cursor) : Option State :=
  if (s.ring c).transfer.isNone ∧ e.status = .ready then
    (e.ref.bind (fun id => (s.entry id).map (fun x => (id, x)))).map (fun x => beginTransfer s c x.1 x.2 p)
  else none

/-- The next period record of a RUNNING channel with a free slot: a REPEAT, or the start of a transfer (R97, R98, R100).
DESIGN CHOICE: the entry comes from the list and the cursor from the course as it stands, which may differ after growing is set
under a list that already wraps (R66, R77, log 52). -/
def deliverPeriod (s : State) (c : Nat) : Option State :=
  let ch := s.chan c
  let n := ch.firstUnwritten
  if periodsAfter n ch.dueIndex ≥ (s.ring c).slotCount ∨ (s.ring c).bars n then none
  else
    match ch.entryAt n, cursorOf s ch n with
    | some e, some p =>
      if ch.callsRepeat e n then (if e.status.lost then none else some (writeRepeat s c e p)) else beginIfReady s c e p
    | _, _ => none

/-- One record or transfer a channel's ring can take now: a waiting REVOKE first (R97, R101). -/
def deliverOne (s : State) (c : Nat) : Option State :=
  let r := s.ring c
  if r.closing ∨ r.free = 0 then none
  else
    match r.revoke with
    | some v => some (writeRevoke s c v)
    | none =>
      if (s.chan c).state = .running then deliverPeriod s c else none

/-- One record or transfer on some channel, the lowest first (log 5). -/
def deliverStep (s : State) : Option State := firstSome (fun c => deliverOne s c.1) s.rings

/-! ## Deciding a REVOKE (R63) -/

/-- Of a waiting REVOKE and a new one, the one naming the earlier period (R63, R101). -/
def earlierRevoke (old : Option Revoke) (new : Revoke) : Revoke :=
  match old with
  | some w => if later w.period new.period then new else w
  | none => new

/-- A transfer whose period lies at or after `r` is void (R99, R101). -/
def Transfer.voidFrom (t : Transfer) (r : Word32) : Transfer :=
  { t with voided := t.voided || atOrAfter t.record.period r }

/-- A REVOKE naming `r` is decided: records from `r` on are void (R63). -/
def decideRevoke (s : State) (c : Nat) (r : Word32) (revised : Bool) : State :=
  let ch := s.chan c
  let v : Revoke := ⟨r, ch.clip, ch.dueLow r⟩
  let s1 := s.modRing c (fun g => { g with
    revoke := some (earlierRevoke g.revoke v), transfer := g.transfer.map (fun t => t.voidFrom r) })
  s1.modChan c (fun ch => { ch.judged with
    lastRecord := if r = ch.dueIndex then ch.priorRecord else some (r - 1)
    flags := ch.flags ||| flagIf revised ChanFlag.revised })

/-- A REVOKE naming `r` is decided if the last record period is at or after it (R58, R65, R66, R67). -/
def revokeFrom (s : State) (c : Nat) (r : Word32) (revised : Bool) : State :=
  if (s.chan c).recordFrom r then decideRevoke s c r revised else s

/-! ## The end of a transfer (R99, R103, R104) -/

/-- The delivered bytes of an entry, in delivered order (R98, R132). -/
def entryBytes (s : State) (e : Entry) : List Byte :=
  (List.range e.bytes).map (fun d => readByte s.store.memory (byteAddress e d))

/-- The bytes a transfer has copied to its slot's buffer. -/
def copiedBytes (s : State) (t : Transfer) : List Byte := ((s.entry t.entry).map (entryBytes s)).getD []

/-- A transfer is in flight on some channel (R104, R183). -/
def anyTransfer (s : State) : Bool := s.rings.any (fun r => r.2.transfer.isSome)

/-- A closing ring without a transfer is dropped and the CHAN_CLOSE answered (R68, R103). -/
def dropRing (s : State) (c : Nat) : State :=
  let s1 := (s.setRing c Ring.initial).refuseOpt (s.chan c).closeTicket .ok
  s1.modChan c (fun ch => { ch with closeTicket := none })

/-- SERVICE_CLEAR is answered once no transfer is in flight (R104, R183). -/
def answerClear (s : State) : State :=
  match s.port.clearWait with
  | none => s
  | some w =>
    if anyTransfer s then s
    else
      let s1 := s.reply w.ticket .ok [item1 w.opened, item1 w.transfers, item2 w.aborted]
      { s1 with port := { s1.port with clearWait := none } }

/-- A transfer ends on a channel that is not closing (R99). -/
def finishTransfer (s : State) (c : Nat) (t : Transfer) : State :=
  let r := s.ring c
  let s1 := s.emit (.record (r.recordAddress t.slot) t.record)
  let s2 := times (publishOne c) r.taken (s1.setRing c { r with transfer := none })
  (releaseHold s2 t.entry).modChan c (fun ch => { ch with missing := false })

/-- A transfer ends on a closing channel: no record is written (R103, R104). -/
def finishClosing (s : State) (c : Nat) (t : Transfer) : State :=
  answerClear (dropRing (releaseHold (s.modRing c (fun r => { r with transfer := none })) t.entry) c)

/-- The end of a channel's transfer (R99, R103). -/
def endTransfer (s : State) (c : Nat) : State :=
  match (s.ring c).transfer with
  | none => s
  | some t =>
    let s1 := s.emit (.frameData ((s.ring c).bufferAddress t.slot) (copiedBytes s t))
    if (s.ring c).closing then finishClosing s1 c t else finishTransfer s1 c t

end Sys2Proof.Machine
end

