-- ==== Sys2Proof/Machine/Map.lean ====
section
/-! DEFINITION. Changing the Frame Map's records: a group slot with its page, table and counts (R3, R4, R12 to R15), the
serial counter (R5), binds and unbinds (R19), the freeing of a clip (R22), and SERVICE_CLEAR at the map (R25). -/

namespace Sys2Proof.Machine

/-- One for a thing that is there. -/
def one (b : Bool) : Nat := if b then 1 else 0

/-- A directory page with a slot replaced and its count kept (R3). -/
def DirPage.withSlot (p : DirPage) (k : Nat) (g : GroupSlot) : DirPage :=
  { slots := tset GroupSlot.empty p.slots k g
    count := p.count + one (!g.isEmpty) - one (!(p.slot k).isEmpty) }

/-- A clip record with group g's slot replaced: its page, its group count (R3, R12, R14, R15). -/
def Clip.withSlot (c : Clip) (g : Nat) (v : GroupSlot) : Clip :=
  { c with
    pages := tset DirPage.absent c.pages (g / 256) ((c.page (g / 256)).withSlot (g % 256) v)
    groupCount := c.groupCount + one (!v.isEmpty) - one (!(c.slot g).isEmpty) }

/-- Whether a page-list entry is absent (R3): a page named by an entry holds at least one slot that is not EMPTY. -/
def Clip.pageAbsent (c : Clip) (k : Nat) : Bool := (c.page k).count == 0

/-- Replaces group g's slot of a clip; a page and a table leave or return to their pools with it (R3, R4). -/
def writeSlot (s : State) (h g : Nat) (v : GroupSlot) : State :=
  let c := s.clip h
  let n := c.withSlot g v
  let s1 := s.setClip h n
  { s1 with map := { s1.map with
      freePages := s.map.freePages + one (!c.pageAbsent (g / 256)) - one (!n.pageAbsent (g / 256))
      freeTables := s.map.freeTables + one (c.slot g).isListed - one v.isListed } }

/-- The serial counter after it has assigned `n` (R5). -/
def nextSerial (n : Nat) : Option Nat := if n = 4294967295 then none else some (n + 1)

/-- The serial counter moves on (R5). -/
def spendSerial (s : State) (n : Nat) : State := { s with map := { s.map with serial := nextSerial n } }

/-- Changes a volume's clip count (R156). -/
def countClip (s : State) (v : Nat) (f : Nat → Nat) : State :=
  s.setVolume v { s.volume v with clipCount := f (s.volume v).clipCount }

/-- The slots of a clip that are not EMPTY. -/
def Clip.usedSlots (c : Clip) : List GroupSlot :=
  c.pages.flatMap (fun p => (p.2.slots.map Prod.snd).filter (fun g => !g.isEmpty))

/-- A clip is freed: serials withdrawn, pins lapsed, tables and pages returned, the record reset (R22). -/
def freeClip (s : State) (h : Nat) : State :=
  let c := s.clip h
  let serials := c.usedSlots.map GroupSlot.serial
  let s1 := lapsePins (orphanWhere s (fun k => serials.contains k.serial)) h
  let s2 := { s1 with map := { s1.map with
    freePages := s.map.freePages + c.pages.length
    freeTables := s.map.freeTables + (c.usedSlots.filter GroupSlot.isListed).length } }
  countClip (s2.setClip h Clip.initial) c.volume (fun n => n - 1)

/-- A bind raises the clip's count (R19). -/
def raiseBind (s : State) (h : Nat) : State := s.setClip h { s.clip h with bindCount := (s.clip h).bindCount + 1 }

/-- The count of an unbind, without its freeing (R19, R21). -/
def lowerBind (s : State) (h : Nat) : State := s.setClip h { s.clip h with bindCount := (s.clip h).bindCount - 1 }

/-- An unbind: a RETIRING clip whose count falls to 0 is freed (R19). -/
def unbind (s : State) (h : Nat) : State :=
  let s1 := lowerBind s h
  if (s1.clip h).state = .retiring ∧ (s1.clip h).bindCount = 0 then freeClip s1 h else s1

/-- The counts of a bind of clip `h` by a channel bound to `old` (0: not bound) (R19). -/
def moveBind (s : State) (old h : Nat) : State :=
  if old = h then s else if old = 0 then raiseBind s h else unbind (raiseBind s h) old

/-- The first check a bind of a clip fails (R19). -/
def bindFault (s : State) (h : Nat) : Option Result :=
  if badClip s h then some .badHandle else if (s.clip h).state ≠ .live then some .badState else none

/-- The lowest FREE handle (R8). -/
def freeHandle (s : State) : Option Nat :=
  ((List.range Config.maxClip).map (· + 1)).find? (fun h => (s.clip h).state == .free)

/-- SERVICE_CLEAR at the Frame Map: bind counts to 0, RETIRING clips freed (R25). -/
def clearMap (s : State) : State :=
  s.map.clips.foldl (fun s c =>
    let s1 := s.setClip c.1 { s.clip c.1 with bindCount := 0 }
    if (s1.clip c.1).state = .retiring then freeClip s1 c.1 else s1) s

end Sys2Proof.Machine
end

