-- ==== Sys2Proof/Machine/Channel.lean ====
section
/-! DEFINITION. What the Channel Controller does in the course of its requests and events (chapters 3 and 4): cues, starts,
course changes, the ends of a binding and of play, changes of the clip beneath it, the settling of a due time. -/

namespace Sys2Proof.Machine

/-! ## Waiting answers -/

/-- A channel's start wait is removed (R167). -/
def cancelWait (s : State) (c : Nat) : State :=
  { s with time := { s.time with waits := tset none s.time.waits c none } }

/-- A waiting cue request is answered and the cue expiry cancelled (R50, R61, R67, R68). -/
def endCue (s : State) (c : Nat) (r : Result) : State :=
  match (s.chan c).cue with
  | some q => (s.refuse q.ticket r).modChan c (fun ch => { ch with cue := none, cueExpiry := none })
  | none => s

/-- A pending start is answered and its start wait cancelled (R56, R167). -/
def endStart (s : State) (c : Nat) (r : Result) : State :=
  match (s.chan c).start with
  | some q => (cancelWait (s.refuse q.ticket r) c).modChan c (fun ch => { ch with start := none })
  | none => s

/-- A pending course is answered and discarded (R60). -/
def endCourse (s : State) (c : Nat) (r : Result) : State :=
  match (s.chan c).course with
  | some q => (s.refuse q.ticket r).modChan c (fun ch => { ch with course := none })
  | none => s

/-- The items of a CHAN_SPEED's OK answer (R187). -/
def speedItems (v : Int) (c : Nat) : List Item := [item2s v, item4 c]

/-- A pending course's speed is stored and its CHAN_SPEED answered OK (R60). -/
def applyCourse (s : State) (c : Nat) : State :=
  match (s.chan c).course with
  | some q => (s.reply q.ticket .ok (speedItems q.speed q.change.toNat)).modChan c (fun ch =>
      { ch with speed := q.speed, course := none })
  | none => s

/-! ## Cues (R54) -/

/-- The items of a cue's answer; n_c is 0 outside RUNNING (R187). -/
def cueItems (q : CueRequest) (short : Bool) (n : Nat) : List Item :=
  [itemFlag short, item1 n, item4s q.position] ++ (if q.ticket.kind = 56 then [item4 0] else [])

/-- A cue completes: CUED, the request answered, CUED set, and SHORT where its condition is unmet (R54). -/
def completeCue (s : State) (c : Nat) (short : Bool) (n : Nat) : State :=
  let s1 := match (s.chan c).cue with
    | some q => s.reply q.ticket .ok (cueItems q short n)
    | none => s
  s1.modChan c (fun ch => { ch with
    state := .cued, cue := none, cueExpiry := none
    flags := ch.flags ||| ChanFlag.cued ||| flagIf short ChanFlag.short })

/-- A status that has left WAITING and FILLING (R54). -/
def ListStatus.left : ListStatus → Bool
  | .waiting => false
  | .filling => false
  | _ => true

/-- The number k of entries a cue waits for: the target, or as many as the list can hold (R54). An entry before the due index
that the cue has cut counts among them (log 47). -/
def cueCount (s : State) (ch : Channel) : Nat := min (depthTarget s ch) ch.list.length

/-- How many of the first k entries have left WAITING and FILLING (R54). -/
def cueLeft (s : State) (ch : Channel) : Nat :=
  ((ch.list.take (cueCount s ch)).filter (fun e => e.status.left)).length

/-- A cue is cut short, by its expiry or by a start (R54). -/
def cutCue (s : State) (c : Nat) : State := completeCue s c true (cueLeft s (s.chan c))

/-- A CUEING channel whose list has stopped growing completes its cue when the first k entries have left (R54). -/
def cueOne (s : State) (c : Nat) (ch : Channel) : Option State :=
  if ch.state = .cueing ∧ (extendOne s c ch).isNone ∧ cueLeft s ch = cueCount s ch then
    some (completeCue s c false (cueCount s ch))
  else none

/-- One cue completed, the lowest channel's first (log 5). -/
def cueStep (s : State) : Option State := firstSome (fun c => cueOne s c.1 (s.chan c.1)) s.chans

/-- The channel is cued to a position for a CHAN_CUE or CHAN_JUMP (R53, R62). The request gives the due index its position, which
no longer follows from the period before: it is none at the edge (R77, log 39). -/
def cueTo (s : State) (c : Nat) (t : Ticket) (position : Int) : State :=
  let s1 := endCue s c .superseded
  let ch := s1.chan c
  let p := clampPosition ch.inPoint ch.lastFrame position
  let s2 := s1.modChan c (fun ch => { ch.prime with pos := p, atEdge := false })
  (recompute s2 c .cue ch.dueIndex).modChan c (fun ch => { ch with
    state := .cueing, cue := some ⟨t, p⟩, cueExpiry := some (s.now + Config.cueTicks), base := some s.now })

/-! ## Starts (R57) -/

/-- The items of a start's OK answer (R57, R187). -/
def startItems (noRef : Bool) (first : Word32) (t due : Nat) : List Item :=
  [itemFlag noRef, item4 first.toNat, item8 t, item8 due]

/-- A start fires at a start time: RUNNING, the first due time a period later, the kept list growing again (R57); a clip of
length 0 refuses it (R56). A channel that resumes at a period at the live edge produces there: EDGE is true (R70, log 39). -/
def fireStart (s : State) (c : Nat) (t : Ticket) (time : Nat) (noRef : Bool) : State :=
  let ch := s.chan c
  if (s.clip ch.clip).length = 0 then s.refuseEmptyClip t
  else
    let s1 := if ch.state = .cueing then cutCue s c else s
    let due := time + ch.period
    (s1.modChan c (fun ch => { ch.judged with
      state := .running, dueTime := some due, base := none, edge := ch.atEdge })).reply t .ok
      (startItems noRef ch.dueIndex time due)

/-- A pending start fires (R56): it is pending no more and its start wait, if any, is gone. -/
def firePending (s : State) (c : Nat) (time : Nat) (noRef : Bool) : State :=
  match (s.chan c).start with
  | some q =>
    fireStart ((cancelWait s c).modChan c (fun ch => { ch with start := none })) c q.ticket time noRef
  | none => cancelWait s c

/-! ## Course changes (R58, R60) -/

/-- The class of a change of speed (R58); from 0 to 0 it is a trim (log 46). -/
def speedClass (old new : Int) : Recompute :=
  if old = 0 ∧ new ≠ 0 then .rebuild else if (old > 0 ∧ new < 0) ∨ (old < 0 ∧ new > 0) then .rebuild else .trim

/-- A rebuild restarts PRIME (R58). -/
def Channel.restart (ch : Channel) (k : Recompute) : Channel := if k = .rebuild then ch.prime else ch

/-- A course change in RUNNING from change period `n` (R58): a pending course is superseded and its periods fall back to the
old course first (R60, log 12); a REVOKE names the earlier of the two change periods. -/
def courseChange (s : State) (c : Nat) (kind : Recompute) (n : Word32) (f : Channel → Channel) : State :=
  let old := (s.chan c).course.map PendingCourse.change
  let s1 := endCourse s c .superseded
  let point := match old with
    | some p => earlierOf p n
    | none => n
  let s2 := revokeFrom s1 c point false
  let s3 := match old with
    | some p => recompute s2 c .trim p
    | none => s2
  recompute (s3.modChan c (fun ch => (f ch).restart kind)) c kind n

/-! ## Leaving RUNNING without a request (R60, R65, R66, R76) -/

/-- The channel goes HELD with END at a position; a pending course is applied, the reckoning starts again (R60, R73, R76). -/
def endPlay (s : State) (c : Nat) (pos : Int) : State :=
  (applyCourse s c).modChan c (fun ch => { ch with
    state := .held, pos := pos, dueTime := none, base := some s.now, edge := false, atEdge := false
    flags := ch.flags ||| ChanFlag.playEnd })

/-! ## The binding (R50, R67, R68) -/

/-- The binding group at its reset values (R44), with nothing left of the run. -/
def Channel.unbound (ch : Channel) : Channel :=
  { ch with
    clip := 0, view := none, inPoint := 0, lastFrame := 0, loop := false, follow := false, alignDefault := false
    rateOverride := none, period := 0, pos := 0, dueTime := none, base := none, missing := false, edge := false
    atEdge := false }

/-- Whether a channel is bound to a clip (R19). -/
def boundTo (s : State) (h c : Nat) : Bool := (s.chan c).clip == h && h != 0

/-- The channels bound to a clip, in number order, which is the model's choice wherever they are taken one by one (logs 45,
51). -/
def boundChannels (s : State) (h : Nat) : List Nat := (List.range Config.channels).filter (boundTo s h)

/-- A cue request, a pending start and a pending course are answered (R50, R67, R68). -/
def endWaiting (s : State) (c : Nat) (r : Result) : State := endCourse (endStart (endCue s c r) c r) c r

/-- A forced unbind (R67); the clip's count falls without freeing it, which CLIP_RETIRE does itself (R21). -/
def forceUnbind (s : State) (c : Nat) : State :=
  let s1 := endWaiting s c .aborted
  let ch := s1.chan c
  let s2 := if ch.state = .running then revokeFrom s1 c ch.dueIndex false else s1
  let s3 := lowerBind (releaseViewOpt (releaseList s2 c) ch.view) ch.clip
  s3.modChan c (fun ch => { ch.unbound with state := .idle, flags := ch.flags ||| ChanFlag.withdrawn })

/-- The end of a closing channel's binding (R68 step 3). -/
def closeBinding (s : State) (c : Nat) : State :=
  let ch := s.chan c
  if ch.clip = 0 then s else unbind (releaseViewOpt s ch.view) ch.clip

/-- The Delivery Engine is told the channel is closing: its waiting REVOKE is dropped, and without a transfer in flight the
ring is dropped and the close answered (R68, R103). -/
def closeRing (s : State) (c : Nat) : State :=
  if (s.ring c).transfer.isSome then s.modRing c (fun r => { r with closing := true, revoke := none }) else dropRing s c

/-- A channel closes (R68). -/
def closeChannel (s : State) (c : Nat) (t : Ticket) : State :=
  let s1 := closeBinding (releaseList (endWaiting s c .aborted) c) c
  closeRing (s1.modChan c (fun ch => { ch.unbound with state := .free, speed := 0, closeTicket := some t })) c

/-! ## Changes from the Frame Map (R64 to R66) -/

/-- A group write reaches a channel (R64). Its entries are left unresolved: `settle` resolves those of all channels after every
channel has decided its REVOKE and dropped its references (log 45). -/
def groupChanged (g : Nat) (s : State) (c : Nat) : State :=
  let ch := s.chan c
  let s1 := match (if ch.state = .running then firstRecordIn ch g else none) with
    | some r => recompute (decideRevoke s c r true) c .afterRevoke r
    | none => s
  reresolveGroup s1 c g

/-- The hand-offs of a group write, in order (R16). -/
def handOff (s : State) (h g old : Nat) : State :=
  let s1 := if old = 0 then s else orphanSerial s old
  (boundChannels s h).foldl (groupChanged g) (refillPins s1 h g)

/-- The in point and last frame after a length change (R47). -/
def rangeAfter (ch : Channel) (length : Nat) : Nat × Nat :=
  if length = 0 then (0, 0)
  else
    let l := if ch.follow then length - 1 else min ch.lastFrame (length - 1)
    (min ch.inPoint l, l)

/-- Whether a period at the live edge is still there under last frame `l`: the channel follows, and `l` is the L its position
16L was held at (R77). -/
def Channel.edgeUnder (ch : Channel) (l : Nat) : Bool := ch.follow && l == ch.lastFrame && ch.pos == 16 * (l : Int)

/-- The channel under a new range: position clamped (R47), at the edge only under the same last frame (R77). -/
def Channel.withRange (ch : Channel) (i l : Nat) : Channel :=
  { ch with
    inPoint := i, lastFrame := l, pos := clampPosition i l ch.pos
    edge := ch.edge && ch.edgeUnder l, atEdge := ch.atEdge && ch.edgeUnder l }

/-- A RUNNING channel under a new range that holds its position (R65): a REVOKE names the first period whose position
differs; the list is trimmed from the due index, then recomputed from the REVOKE's period (R85; the two together: log 38). -/
def rangeRunning (s : State) (c i l : Nat) : State :=
  let ch := s.chan c
  let n := ch.dueIndex
  let span := periodsAfter ch.firstUnwritten n
  let ch' := ch.withRange i l
  let r := firstDifference (courseOf s ch) (courseOf s ch') (span + 1) (some ch.due) (some ch'.due) n
  let hit := r.filter ch.recordFrom
  let s1 := match hit with
    | some r => decideRevoke s c r true
    | none => s
  let s2 := recompute (s1.modChan c (fun ch => ch.withRange i l)) c .trim n
  match hit with
  | some r => recompute s2 c .afterRevoke r
  | none => s2

/-- A RUNNING channel whose position lies outside the new range ends play (R65). -/
def rangeEnds (s : State) (c i l : Nat) : State :=
  let n := (s.chan c).dueIndex
  let s1 := (revokeFrom s c n true).modChan c (fun ch => ch.withRange i l)
  recompute (endPlay s1 c (16 * (l : Int))) c .trim n

/-- A change of a clip's length reaches a channel (R65). -/
def lengthChanged (length : Nat) (s : State) (c : Nat) : State :=
  let ch := s.chan c
  let (i, l) := rangeAfter ch length
  if ch.state = .running then
    if length = 0 ∨ ch.pos > 16 * (l : Int) + 15 then rangeEnds s c i l else rangeRunning s c i l
  else recompute (s.modChan c (fun ch => ch.withRange i l)) c .trim ch.dueIndex

/-- Growing has changed from yes to no: a RUNNING channel at the live edge ends play at 16L, where L is length − 1 (R66, R77).
No other following channel's due index is at the edge from now on (R77, log 39), and its list is computed again (log 13). -/
def growthEnded (s : State) (c : Nat) : State :=
  let ch := s.chan c
  if !ch.follow then s
  else if ch.state = .running ∧ ch.atEdge then
    recompute (endPlay (revokeFrom s c ch.dueIndex true) c (16 * (ch.lastFrame : Int))) c .trim ch.dueIndex
  else recompute (s.modChan c (fun ch => { ch with atEdge := false })) c .trim ch.dueIndex

/-- Growing has changed from no to yes, which has no effect on a channel (R66): its list, extended so far as the course has gone
until now, stands until an event in which extension is judged (R83, log 14). -/
def growthBegan (s : State) (c : Nat) : State :=
  (extendFor c Config.maxList s).modChan c (fun ch => { ch with listStands := ch.state.extends })

/-! ## The settling of a period (R88 to R90) -/

/-- How a period is settled: shown (a FRAME or REPEAT stands for it), missed, or skipped (R88). -/
inductive Settled where
  | shown | missed | skipped
  deriving DecidableEq, Repr

/-- The reason of a MISS by its entry's status (R88). -/
def ListStatus.missReason : ListStatus → MissReason
  | .absent => .absent
  | .oversize => .oversize
  | .failed r => .failed r
  | _ => .notReady

/-- A period with no slot free is skipped and counted in the gap (R100). -/
def skipPeriod (s : State) (c : Nat) : State := s.modRing c (fun r => { r with gap := min Config.maxGap (r.gap + 1) })

/-- The period falling due is settled (R88). A REPEAT of a period later than a transfer in flight is barred, and a MISS written
in its place (R97), though the record before it be a REPEAT that waits behind a void transfer (log 23). -/
def settlePeriod (s : State) (c : Nat) : State × Settled :=
  let ch := s.chan c
  let n := ch.dueIndex
  if ch.recordFrom n then (s, .shown)
  else if (s.ring c).free = 0 then (skipPeriod s c, .skipped)
  else
    match ch.entryAt n with
    | none => (writeMiss s c .notReady ch.due, .missed)
    | some e =>
      if ch.callsRepeat e n && !(s.ring c).bars n && !e.status.lost then
        (writeRepeat s c e ch.due, .shown)
      else (writeMiss s c e.status.missReason ch.due, .missed)

/-- What a settled period leaves in the channel record: MISSING (R89) and what stands before the next due index. -/
def Channel.settled (ch : Channel) (n : Word32) (how : Settled) : Channel :=
  { ch with
    missing := ch.missing || how != .shown
    priorRecord := if how = .skipped then ch.priorRecord else some n
    priorShown := how == .shown }

/-- The PRIME countdown, which stands while the store is in overload (R82, R90 step 3). -/
def Channel.countPrime (ch : Channel) (overload : Bool) : Channel :=
  if ch.phase = .prime ∧ !overload then
    { ch with remaining := ch.remaining - 1, phase := if ch.remaining ≤ 1 then .sustain else .prime }
  else ch

/-- The due index moves on to the period of a cursor (R90 steps 1 and 6); EDGE goes by whether that period is at the edge. -/
def Channel.moveTo (ch : Channel) (d : Cursor) : Channel :=
  { ch with
    dueIndex := d.period, dueTime := ch.dueTime.map (· + ch.period), pos := d.pos, edge := d.edge, atEdge := d.edge }

/-- A pending course whose change period the due index has reached is applied (R60, R90 step 4). -/
def reachCourse (s : State) (c : Nat) : State :=
  match (s.chan c).course with
  | some q => if q.change = (s.chan c).dueIndex then applyCourse s c else s
  | none => s

/-- The position a run that has left its range is held at (R76). -/
def endPosition (ch : Channel) (v : Int) : Int := if v > 0 then 16 * (ch.lastFrame : Int) else 16 * (ch.inPoint : Int)

/-- The period after the due index by the course, none when it is the end period (R76, R90 step 1). -/
def nextDue (s : State) (c : Nat) : Option Cursor := (courseOf s (s.chan c)).next (s.chan c).due

/-- The period falling due is settled and the due index moved on (R88, R90 step 1). -/
def settleAndMove (s : State) (c : Nat) : State :=
  let n := (s.chan c).dueIndex
  let x := settlePeriod s c
  let s1 := x.1.modChan c (fun ch => ch.settled n x.2)
  s1.modChan c (fun ch => ch.moveTo ((nextDue s c).getD ⟨n + 1, ch.pos, false⟩))

/-- The period is settled, the due index moved on and the passed entries are released (R88, R90 steps 1 and 2). Each release has
overload judged (R122). -/
def releasePassed (s : State) (c : Nat) : State := dropPassed (settleAndMove s c) c (s.chan c).dueIndex

/-- The due time of a RUNNING channel's period is reached (R88, R90). The PRIME count goes by the overload that the releases of
step 2 leave (R90 step 3, R122; grants that they allow come later in the event: log 49). -/
def duePeriod (s : State) (c : Nat) : State :=
  let ch := s.chan c
  let s1 := releasePassed s c
  let s2 := reachCourse (s1.modChan c (fun ch => ch.countPrime s1.store.overload)) c
  if (nextDue s c).isSome then s2 else endPlay s2 c (endPosition ch ((courseOf s ch).speedAt ch.dueIndex))

end Sys2Proof.Machine
end

