-- ==== Sys2Proof/Machine/Links.lean ====
section
/-! DEFINITION. The Media Link Controllers (chapter 8): member state changes and their hand-offs (R148), failure (R149), the
ends of reads (R144, R145), the end of a drain (R151), link down (R147), and volumes (R158, R159). -/

namespace Sys2Proof.Machine

/-- The Request Port is told of a member state change (R148 step 4, R178). -/
def noteMember (s : State) : State := s.setPartFlag PartFlag.member

/-- The tag numbers of a link that are BUSY. -/
def Link.busyTags (l : Link) : List Nat := (l.tagList.filter (fun t => t.2.isBusy)).map Prod.fst

/-- A tag of a link set. -/
def setTag (s : State) (m t : Nat) (v : TagState) : State :=
  s.modLink m (fun l => { l with tags := tset TagState.free l.tags t v })

/-- A BUSY read is reported failed with its member, its tag QUARANTINED (R147, R148 step 2). -/
def failTag (m : Nat) (s : State) (t : Nat) : State := readEnded (setTag s m t .quarantined) m t .lost

/-- Every BUSY read of a link is reported failed with its member, in tag order (R147, R148 step 2; the order: log 40). -/
def failTags (s : State) (m : Nat) : State := (s.link m).busyTags.foldl (failTag m) s

/-- A member's state changes and is handed on in R148's order: the Read Scheduler, the reads of a failed member, the Frame
Store, the Request Port. The wait list and the queues are judged by `settle` in the same event. -/
def setMember (s : State) (m : Nat) (new : MemberState) : State :=
  let old := (s.link m).member
  let s1 := s.modLink m (fun l => { l with member := new })
  let s2 := if old = .online ∧ new ≠ .online then leaveOnline s1 m else s1
  let s3 := if new = .failed then failTags s2 m else s2
  let s4 := if new = .online then memberOnline s3 else s3
  noteMember s4

/-- A waiting hold request is answered without items (R149, R152, R160). -/
def endHold (s : State) (m : Nat) (r : Result) : State :=
  (s.refuseOpt (s.link m).hold r).modLink m (fun l => { l with hold := none })

/-- A member fails (R149). -/
def failMember (s : State) (m : Nat) : State := endHold (setMember s m .failed) m .failed

/-- The items of a hold answered OK: the drain counts (R151, R187). -/
def holdItems (l : Link) : List Item := [item2 l.drainOk, item2 l.drainFailed]

/-- The drain ends: HELD, and the hold answered OK (R151). -/
def endDrain (s : State) (m : Nat) : State :=
  let s1 := setMember s m .held
  let l := s1.link m
  let s2 := match l.hold with
    | some t => s1.reply t .ok (holdItems l)
    | none => s1
  s2.modLink m (fun l => { l with hold := none })

/-- All 8 tags of a link are QUARANTINED (R145, R149). -/
def Link.allQuarantined (l : Link) : Bool := l.countTags (· == .quarantined) == Config.tags

/-- What a member does once a read of its link has ended: it fails at three consecutive failures or with all tags
QUARANTINED (R149), else a drain with no BUSY tag ends (R151). -/
def judgeMember (s : State) (m : Nat) : State :=
  let l := s.link m
  if (l.member = .online ∨ l.member = .draining) ∧ (l.failures = 3 ∨ l.allQuarantined) then failMember s m
  else if l.member = .draining ∧ l.busyTags = [] then endDrain s m
  else s

/-- The failure count and the drain counts after a read's end (R146, R151). -/
def Link.countEnd (l : Link) (ok : Bool) : Link :=
  { l with
    failures := if ok then 0 else min 3 (l.failures + 1)
    drainOk := l.drainOk + (if l.member = .draining ∧ ok then 1 else 0)
    drainFailed := l.drainFailed + (if l.member = .draining ∧ !ok then 1 else 0) }

/-- The length in bytes of the data a BUSY tag's read asks for. -/
def wantedBytes (s : State) (m t : Nat) : Nat := ((issuedRead s m t).map (fun r => r.count * Config.sector)).getD 0

/-- The end of a read by its DONE (R142, R144). -/
def doneEnd (s : State) (m : Nat) (d : DoneMsg) : ReadEnd :=
  if d.ok && d.dataGood && d.data.length == wantedBytes s m d.tag then .ok d.data else .lost

/-- Whether a read ended OK. -/
def ReadEnd.isOk : ReadEnd → Bool
  | .ok _ => true
  | .lost => false

/-- A DONE taken under its tag (R144); it frees a QUARANTINED tag whatever quarantined it (log 41). -/
def takeDone (s : State) (m : Nat) (d : DoneMsg) : State :=
  match tget TagState.free (s.link m).tags d.tag with
  | .free => s
  | .quarantined => setTag s m d.tag .free
  | .busy .. =>
    let how := doneEnd s m d
    let s1 := readEnded (setTag s m d.tag .free) m d.tag how
    judgeMember (s1.modLink m (fun l => l.countEnd how.isOk)) m

/-- A BUSY tag's expiry is reached (R145). -/
def expireTag (s : State) (m t : Nat) : State :=
  let s1 := readEnded (setTag s m t .quarantined) m t .lost
  judgeMember (s1.modLink m (fun l => l.countEnd false)) m

/-- A waiting return ends with BAD_STATE and its cause (R154, R187). -/
def endReturn (s : State) (m cause : Nat) : State :=
  match (s.link m).ret with
  | some (t, _) => (s.reply t .badState [item1 0, item1 cause]).modLink m (fun l => { l with ret := none })
  | none => s

/-- The link's receiver loses the member's signal (R147). -/
def dropLink (s : State) (m : Nat) : State :=
  let s1 := s.modLink m (fun l => { l with up := false })
  let k := (s1.link m).member
  let s2 := if k = .online ∨ k = .draining ∨ k = .held then failMember s1 m else failTags s1 m
  endReturn s2 m 1

/-- A RESET_DONE that ends a waiting return (R154). -/
def returnMember (s : State) (m : Nat) (t : Ticket) : State :=
  let freed := (s.link m).countTags (· == .quarantined)
  let s1 := s.modLink m (fun l => { l with tags := [], failures := 0, ret := none })
  (setMember s1 m .online).reply t .ok [item1 freed, item1 0]

/-! ## Volumes -/

/-- A member leaves its volume: UNUSED (R159). -/
def releaseMember (s : State) (m : Nat) : State :=
  setMember (s.modLink m (fun l => { l with volume := none, index := none })) m .unused

/-- A volume is dissolved: undefined and lost to its entries, then its members UNUSED in list order (R159, log 18, log 30). -/
def dissolve (s : State) (v : Nat) : State :=
  let ms := (s.volume v).members
  ms.foldl releaseMember (forgetVolume (s.setVolume v Volume.initial) v)

/-- A member of a definition takes its place and its state (R158). -/
def enlistMember (v : Nat) (s : State) (x : Nat × Nat) : State :=
  let s1 := s.modLink x.1 (fun l => { l with volume := some v, index := some x.2, failures := 0 })
  let l := s1.link x.1
  setMember s1 x.1 (if l.up ∧ !l.allQuarantined then .online else .failed)

/-- The volume record of a definition (R156, R158). -/
def volumeOf (a : VolumeDefineArgs) : Volume :=
  let rows := a.memberLength / a.unit
  { defined := true, members := a.members, parity := a.parity, unit := a.unit, base := a.base
    memberLength := a.memberLength, rows := rows
    capacity := a.unit * rows * (if a.parity then a.width - 1 else a.width), clipCount := 0 }

/-- A VOLUME_DEFINE is carried out (R158). -/
def defineVolume (s : State) (a : VolumeDefineArgs) : State :=
  let s1 := if (s.volume a.volume).defined then dissolve s a.volume else s
  (a.members.zipIdx).foldl (enlistMember a.volume) (s1.setVolume a.volume (volumeOf a))

/-- A member that is DRAINING or has a return request waiting (R157, R159). -/
def memberBusy (s : State) (m : Nat) : Bool := (s.link m).member == .draining || (s.link m).ret.isSome

/-- SERVICE_CLEAR at a media link: a DRAINING member returns to ONLINE, its hold ABORTED (R160). -/
def clearLink (s : State) (m : Nat) : State :=
  if (s.link m).member = .draining then endHold (setMember s m .online) m .aborted else s

end Sys2Proof.Machine
end

