-- ==== Sys2Proof/Machine/Settle.lean ====
section
/-! DEFINITION. What follows within an event (log 5): after a command's own effect, the consequences the rules place "in the
same event" are carried out one at a time, in a fixed order, until none is left. -/

namespace Sys2Proof.Machine

/-- The first of two steps that does something. -/
def orStep (a b : State → Option State) (s : State) : Option State :=
  match a s with
  | some s' => some s'
  | none => b s

/-- One consequence: handing of pieces (R126), overload (R122), the grant (R111), resolution (R80), extension (R83), a cue
completed (R54), a record or transfer (R97), a read issued (R131). -/
def settleStep : State → Option State :=
  orStep handStep <| orStep judgeOverload <| orStep grantHead <| orStep resolveStep <| orStep extendStep <|
    orStep cueStep <| orStep deliverStep issueStep

/-- Consequences until none is left; the first argument bounds them (log 25). -/
def settleFor : Nat → State → State
  | 0, s => s
  | n + 1, s =>
    let s1 := refreshUrgency s
    match settleStep s1 with
    | some s2 => settleFor n s2
    | none => s1

/-- All consequences of an event. -/
def settle (s : State) : State := settleFor Config.settleFuel s

end Sys2Proof.Machine
end

