-- ==== Sys2Proof/Machine/Port.lean ====
section
/-! DEFINITION. The Request Port (chapter 10): port words, enabling and stopping, reading and taking requests, the end of an
event. -/

namespace Sys2Proof.Machine

/-! ## The end of an event -/

/-- The port starts the read of entry H when ENABLED, nothing is in hand, H differs from REQ_TAIL and no SERVICE_CLEAR answer
waits (R174). -/
def startRead (s : State) : State :=
  let p := s.port
  if p.state = .enabled ∧ p.hand = .idle ∧ p.head ≠ p.reqTail ∧ p.clearWait = none then
    { s.emit (.readHost (requestAddress p) 64) with port := { p with hand := .reading } }
  else s

/-- An event that began in `s0` and has had its own effect ends in this state: its consequences, answers and notices, the port
record, then the next request's read, which R174 places after the record and R183 after the SERVICE_CLEAR answer. -/
def endEvent (s0 s : State) : State := startRead (finish s0 (settle s))

/-! ## Port words (R170, R190) -/

/-- A read of the register window at an offset and width: a base in 8 bytes or in either 4-byte half, another port word in 4;
0 elsewhere (R170, R190; the halves and other widths: log 29). -/
def portRead (s : State) (offset width : Nat) : Nat :=
  let p := s.port
  match offset, width with
  | 0, 8 => p.reqBase.toNat
  | 0, 4 => p.reqBase.toNat % 4294967296
  | 4, 4 => p.reqBase.toNat / 4294967296
  | 8, 4 => p.reqSize.toNat
  | 12, 4 => p.reqTail.toNat
  | 16, 8 => p.ansBase.toNat
  | 16, 4 => p.ansBase.toNat % 4294967296
  | 20, 4 => p.ansBase.toNat / 4294967296
  | 24, 4 => p.ansSize.toNat
  | 28, 4 => p.ansHead.toNat
  | 32, 4 => p.state.code
  | _, _ => 0

/-- The low half of a base replaced (R190). -/
def withLow (b : Word64) (v : Nat) : Word64 := (b >>> 32 <<< 32) ||| (BitVec.ofNat 32 v).setWidth 64

/-- The high half of a base replaced (R190). -/
def withHigh (b : Word64) (v : Nat) : Word64 := (b <<< 32 >>> 32) ||| ((BitVec.ofNat 32 v).setWidth 64 <<< 32)

/-- A write to a base or a size, stored while DISABLED; a write of another size or to another offset is ignored (R170,
R190). -/
def writeSetup (p : Port) (offset width value : Nat) : Port :=
  if p.state ≠ .disabled then p
  else
    match offset, width with
    | 0, 8 => { p with reqBase := BitVec.ofNat 64 value }
    | 0, 4 => { p with reqBase := withLow p.reqBase value }
    | 4, 4 => { p with reqBase := withHigh p.reqBase value }
    | 8, 4 => { p with reqSize := BitVec.ofNat 32 value }
    | 16, 8 => { p with ansBase := BitVec.ofNat 64 value }
    | 16, 4 => { p with ansBase := withLow p.ansBase value }
    | 20, 4 => { p with ansBase := withHigh p.ansBase value }
    | 24, 4 => { p with ansSize := BitVec.ofNat 32 value }
    | _, _ => p

/-- A legal ring size: a power of two from 64 to 4096 (R170). -/
def legalSize (n : Word32) : Bool := [64, 128, 256, 512, 1024, 2048, 4096].contains n.toNat

/-- The conditions of an enable (R171). -/
def enableLegal (p : Port) : Bool :=
  legalSize p.reqSize && legalSize p.ansSize && p.reqBase.toNat % 64 == 0 && p.ansBase.toNat % 32 == 0

/-- The port just enabled: H, A, V, tail and head 0 (R171). -/
def Port.enabled (p : Port) : Port :=
  { p with state := .enabled, head := 0, produced := 0, reserved := 0, reqTail := 0, ansHead := 0 }

/-- A write of 1 to RING_ENABLE (R170, R171). -/
def enableRings (s : State) : State :=
  match s.port.state with
  | .disabled =>
    if enableLegal s.port then { s with port := s.port.enabled } else s
  | .enabled => s
  | .stopping => { s with port := { s.port with state := .enabled } }

/-- A stop drops a request in hand; a read in flight is discarded when it ends (R171). -/
def Hand.stopped : Hand → Hand
  | .reading => .condemned
  | .condemned => .condemned
  | _ => .idle

/-- A write of 0 to RING_ENABLE (R170, R171). -/
def disableRings (s : State) : State :=
  if s.port.state ≠ .enabled then s
  else { s with port := { s.port with
    state := if s.port.reserved = 0 then .disabled else .stopping, hand := s.port.hand.stopped } }

/-- A write to REQ_TAIL: stored while not DISABLED when it lies in the forward window to H + REQ_SIZE (R173). -/
def writeTail (s : State) (value : Nat) : State :=
  let p := s.port
  let t := BitVec.ofNat 32 value
  if p.state ≠ .disabled ∧ (t - p.reqTail).toNat ≤ (p.head + p.reqSize - p.reqTail).toNat then
    { s with port := { p with reqTail := t } }
  else s

/-- A write to ANS_HEAD: stored while not DISABLED when it lies in the forward window to A (R173). -/
def writeHead (s : State) (value : Nat) : State :=
  let p := s.port
  let t := BitVec.ofNat 32 value
  if p.state ≠ .disabled ∧ (t - p.ansHead).toNat ≤ (p.produced - p.ansHead).toNat then
    { s with port := { p with ansHead := t } }
  else s

/-- A host write to RING_ENABLE: 1 enables, 0 stops, any other value is ignored (R170, R190). -/
def writeEnable (s : State) (value : Nat) : State :=
  if value = 1 then enableRings s else if value = 0 then disableRings s else s

/-- A host write into the register window (R170, R190, log 29). -/
def writeWindow (s : State) (offset width value : Nat) : State :=
  match offset, width with
  | 12, 4 => writeTail s value
  | 28, 4 => writeHead s value
  | 32, 4 => writeEnable s value
  | _, _ => { s with port := writeSetup s.port offset width value }

/-! ## Reading and taking (R174, R175) -/

/-- What stands in hand is replaced. -/
def State.setHand (s : State) (h : Hand) : State := { s with port := { s.port with hand := h } }

/-- An answer reservation is free (R174 condition 2). -/
def reservationFree (p : Port) : Bool :=
  decide ((p.produced - p.ansHead).toNat + p.reserved + 1 ≤ p.ansSize.toNat)

/-- The kinds the Frame Map owns (R7, R186). -/
def mapKind (k : Nat) : Bool := decide (16 ≤ k ∧ k ≤ 23)

/-- A request of a kind in hand can be taken (R174); while a SERVICE_CLEAR answer waits none is (R183). -/
def canTake (s : State) (kind : Nat) : Bool :=
  s.port.state == .enabled && reservationFree s.port && s.port.clearWait.isNone &&
    !(mapKind kind && s.map.fetch.isSome)

/-- The ticket of the request now taken (R176). -/
def ticketOf (s : State) (kind tag : Nat) : Ticket := ⟨kind, tag, s.port.taken⟩

/-- H and V rise by 1 and nothing is in hand (R174). -/
def beginTake (s : State) : State :=
  { s with port := { s.port with
    head := s.port.head + 1, reserved := s.port.reserved + 1, taken := s.port.taken + 1, hand := .idle } }

/-- The conditions a request's event is compared with: SERVICE_CLEAR clears channel flags with their records and hands no
change of MISSING or EDGE (R71, log 31). -/
def takeBase (s : State) (r : Request) : State := if r = .serviceClear then { s with chans := [] } else s

/-- A request is taken in an event that began in `s0` and has come to `s`: its owner acts, and the event ends (R174). -/
def takeRequest (s0 : State) (tag : Nat) (r : Request) (act : Ticket → State → State) (s : State) : State :=
  endEvent (takeBase s0 r) (act (ticketOf s r.kind tag) (beginTake s))

/-- What stands in hand for the taking of a request: the request itself, or the read whose end brings it (log 1). -/
def Hand.brings (h : Hand) (q : InHand) : Bool := h == .held q || h == .reading

/-- The taking of this very request: it is taken when it is in hand, or its read is in flight and ends with it, and R174's
conditions hold. Where they do not, a request whose read has ended stays in hand (log 1, log 2). -/
def takeAs (tag : Nat) (r : Request) (act : Ticket → State → State) (s : State) : State :=
  if s.port.hand.brings (.request tag r) then
    if canTake s r.kind then takeRequest s tag r act s else s.setHand (.held (.request tag r))
  else s

/-- A request of unknown kind, or one whose read failed, is taken and answered BAD_KIND (R174, R175). -/
def takeBadKind (s0 : State) (tag kind : Nat) (failed : Bool) (s : State) : State :=
  let s1 := beginTake s
  endEvent s0 { s1 with handed := s1.handed ++ [⟨ticketOf s kind tag, .badKind, failed, 0, []⟩] }

end Sys2Proof.Machine
end

