-- ==== Sys2Proof/Machine/Time.lean ====
section
/-! DEFINITION. The Timebase Unit (chapter 9): local cycles, reference pulses, calibration, the monitor, start waits; its
requests CALIBRATE and TIME_ASK. -/

namespace Sys2Proof.Machine

/-! ## House time (R161) -/

/-- One cycle of the local oscillator: the accumulator rises by E, each whole M in it is a tick, and a COUNTING measurement
counts the cycle (R161, R164). -/
def Timebase.cycle (t : Timebase) : Timebase :=
  let a := t.accumulator + t.ticks
  { t with
    accumulator := a % t.cycles
    house := (t.house + a / t.cycles) % 18446744073709551616
    measure := if t.measure.state = .counting then { t.measure with cycles := t.measure.cycles + 1 } else t.measure }

/-! ## Calibration (R163 to R165) -/

/-- The deviation test: |M − E| × 4000 ≤ E (R165). -/
def withinTolerance (e m : Nat) : Bool := decide (((m : Int) - e).natAbs * 4000 ≤ e)

/-- The figure: |M − E| × 100,000,000 / E rounded half up, negative when M is below E (R165). -/
def figureOf (e m : Nat) : Int :=
  let d := ((m : Int) - e).natAbs
  let f : Nat := (2 * d * 100000000 + e) / (2 * e)
  if m < e then -(f : Int) else f

/-- The items of a CALIBRATE's answer (R187). -/
def calItems (pulses : Nat) (figure : Int) (m : Nat) : List Item := [item1 pulses, item4s figure, item4 m]

/-- An accepted calibration (R165). -/
def Timebase.accept (t : Timebase) (e m : Nat) : Timebase :=
  { t with
    ticks := e, cycles := m, accumulator := 0, calibrated := true, refPeriod := some t.measure.period
    figure := figureOf e m, monitor := true }

/-- The measurement has counted M cycles over eight intervals and is judged (R165). -/
def judgeMeasure (s : State) : State :=
  let t := s.time
  let e := 8 * t.measure.period
  let m := t.measure.cycles
  let ok := withinTolerance e m
  let s1 := match t.measure.ticket with
    | some k => s.reply k (if ok then .ok else .calRange) (calItems 8 (figureOf e m) m)
    | none => s
  { s1 with time := { (if ok then t.accept e m else t) with measure := Measurement.initial } }

/-- A measurement in progress takes a pulse stamped with the house time (R164). -/
def pulseMeasure (s : State) : State :=
  let q := s.time.measure
  let limit := s.now + 2 * q.period
  match q.state with
  | .idle => s
  | .armed => { s with time := { s.time with
      measure := { q with state := .counting, pulses := 0, cycles := 0, limit := limit } } }
  | .counting =>
    if q.pulses < 7 then
      { s with time := { s.time with measure := { q with pulses := q.pulses + 1, limit := limit } } }
    else judgeMeasure s

/-- The measurement's limit is reached: NO_REF with the pulse count and a figure of 0; M is a free value (R164, log 9). -/
def limitMeasure (s : State) : State :=
  let q := s.time.measure
  let s1 := match q.ticket with
    | some k => (s.reply k .noRef (calItems q.pulses 0 (Config.noRefCycles s.freeDraws).toNat)).draw
    | none => s
  { s1 with time := { s1.time with measure := Measurement.initial } }

/-! ## Reference pulses (R162, R167) -/

/-- The channels with a start wait standing, in number order (R167). -/
def waitingChannels (s : State) : List Nat := (s.time.waits.filter (fun w => w.2.isSome)).map Prod.fst

/-- The pulse fires one channel's start wait with the stamp (R162, R167). -/
def firePulse (stamp : Nat) (s : State) (c : Nat) : State := firePending s c stamp false

/-- A reference pulse: the last pulse time, the measurement, the monitor, every start wait (R162). -/
def takePulse (s : State) : State :=
  let stamp := s.now
  let s1 := pulseMeasure { s with time := { s.time with lastPulse := some stamp } }
  let s2 := if s1.time.monitor then { s1 with time := { s1.time with refLost := false } } else s1
  (waitingChannels s).foldl (firePulse stamp) s2

/-- House time exceeds the last pulse time by more than 2 × P_ref with the monitor ON (R166). -/
def referenceSilent (t : Timebase) : Bool :=
  match t.lastPulse, t.refPeriod with
  | some p, some r => t.monitor && decide (t.house > p + 2 * r)
  | _, _ => false

/-- The limit time of a start wait asked now by a channel of period P (R167). -/
def waitLimit (t : Timebase) (period : Nat) : Nat :=
  t.house + 2 * (if t.calibrated then t.refPeriod.getD 0 else period)

/-! ## The commands -/

/-- LOCAL_CYCLE (R161, R164). -/
def execLocalCycle (s : State) : Host.Outcome State Fault Refusal := .next { s with time := s.time.cycle }

/-- REF_PULSE: a rising edge of REF_IN held high for four cycles or more is one pulse; a shorter one is not taken (R162,
R191). -/
def execRefPulse (highCycles : Nat) (s : State) : Host.Outcome State Fault Refusal :=
  .next (if highCycles ≥ 4 then endEvent s (takePulse s) else s)

/-- CAL_LIMIT: house time reaches the limit time of a measurement in progress (R164). -/
def execCalLimit (s : State) : Host.Outcome State Fault Refusal :=
  .next (if s.time.measure.state ≠ .idle ∧ s.time.measure.limit ≤ s.now then endEvent s (limitMeasure s) else s)

/-- REF_LOST_TIMEOUT: house time passes the last pulse time plus 2 × P_ref (R166). -/
def execRefLostTimeout (s : State) : Host.Outcome State Fault Refusal :=
  .next (if referenceSilent s.time then endEvent s { s with time := { s.time with refLost := true } } else s)

/-- CALIBRATE at its owner (R163). -/
def doCalibrate (period : Nat) (t : Ticket) (s : State) : State :=
  if s.time.measure.state ≠ .idle then s.refuse t .badState
  else if period < 27000 ∨ period > 27000000 then s.refuseRange t 1
  else { s with time := { s.time with measure := ⟨.armed, some t, period, 0, 0, s.now + 2 * period⟩ } }

/-- CALIBRATE (R163). -/
def execCalibrate (tag period : Nat) (s : State) : Host.Outcome State Fault Refusal :=
  .next (takeAs tag (.calibrate period) (doCalibrate period) s)

/-- The high bits of the timebase state byte: the measurement (R187). -/
def Measurement.code (q : Measurement) : Nat :=
  match q.state with
  | .idle => 0
  | .armed => 1
  | .counting => 2 + q.pulses

/-- The timebase state byte (R187). -/
def Timebase.stateByte (t : Timebase) : Nat :=
  (if t.calibrated then 1 else 0) + (if t.monitor then 2 else 0) + (if t.refLost then 4 else 0) +
    (if t.lastPulse.isSome then 8 else 0) + 16 * t.measure.code

/-- The items of TIME_ASK (R168, R187). -/
def timeItems (s : State) : List Item :=
  let t := s.time
  [item8 t.house, item4 (t.refPeriod.getD 0), item4 t.cycles, item4 ((t.lastPulse.getD 0) % 4294967296),
    item2s t.figure, item1 t.stateByte, item1 (waitingChannels s).length]

/-- TIME_ASK at its owner (R168). -/
def doTimeAsk (t : Ticket) (s : State) : State := s.reply t .ok (timeItems s)

/-- TIME_ASK (R168). -/
def execTimeAsk (tag : Nat) (s : State) : Host.Outcome State Fault Refusal := .next (takeAs tag .timeAsk doTimeAsk s)

end Sys2Proof.Machine
end

