-- ==== Sys2Proof/Machine/ChannelCommands.lean ====
section
/-! DEFINITION. The channel requests and the channel's own events (chapters 3 and 4). -/

namespace Sys2Proof.Machine

/-- A channel number that is out of range or FREE (R46). -/
def badChannel (s : State) (c : Nat) : Bool := decide (c ≥ Config.channels) || (s.chan c).state == .free

/-! ## CHAN_OPEN -/

/-- The three depth values CHAN_OPEN and CHAN_DEPTH apply, clamped (R48, R52). -/
def depthItems (prime sustain periods : Nat) : Nat × Nat × Nat :=
  (clampNat 1 32 prime, clampNat 1 32 sustain, clampNat 0 1023 periods)

/-- The depth values of a CHAN_OPEN: the defaults, or its arguments clamped (R48). -/
def openDepths (a : ChanOpenArgs) : Nat × Nat × Nat :=
  if a.defaults then (16, 6, 48) else depthItems a.primeDepth a.sustainDepth a.primePeriods

/-- The record of a channel just opened (R48). -/
def openedChannel (a : ChanOpenArgs) : Channel :=
  let d := openDepths a
  { Channel.initial with
    state := .idle, ringBase := a.ringBase, recordArea := a.recordArea, slotCount := a.slotCount
    slotBytes := a.slotBytes, leadMargin := a.leadMargin, primeDepth := d.1, sustainDepth := d.2.1
    primePeriods := d.2.2 }

/-- The ring of a channel just opened (R93). -/
def openedRing (a : ChanOpenArgs) : Ring :=
  { Ring.initial with base := a.ringBase, recordArea := a.recordArea, slotCount := a.slotCount, slotBytes := a.slotBytes }

/-- The items that report three depth values (R187). -/
def depthReport (d : Nat × Nat × Nat) : List Item := [item1 d.1, item1 d.2.1, item2 d.2.2]

/-- A CHAN_OPEN that passes its checks (R48, R93). -/
def openChannel (s : State) (a : ChanOpenArgs) : State :=
  let r := openedRing a
  ((s.setChan a.channel (openedChannel a)).setRing a.channel r).emit (.produceWord r.produceAddress 0)

/-- CHAN_OPEN at the Channel Controller (R48). -/
def doChanOpen (a : ChanOpenArgs) (t : Ticket) (s : State) : State :=
  let ch := s.chan a.channel
  if a.channel ≥ Config.channels then s.refuse t .badHandle
  else if ch.state ≠ .free ∨ ch.closeTicket.isSome then s.refuse t .badState
  else if a.slotCount < 2 ∨ a.slotCount > 64 then s.refuseRange t 5
  else if a.slotBytes < 4096 ∨ a.slotBytes > Config.maxFrame ∨ a.slotBytes % 4096 ≠ 0 then s.refuseRange t 7
  else if a.leadMargin > Config.maxLead then s.refuseRange t 8
  else (openChannel s a).reply t .ok (depthReport (openDepths a))

/-- CHAN_OPEN (R48). -/
def execChanOpen (tag : Nat) (a : ChanOpenArgs) (s : State) : Host.Outcome State Fault Refusal :=
  .next (takeAs tag (.chanOpen a) (doChanOpen a) s)

/-! ## CHAN_BIND and CHAN_OPTIONS -/

/-- The last frame a binding or its options give: length − 1 for a following channel, 0 while the length is 0 (R47). -/
def chosenLast (follow : Bool) (l length : Nat) : Nat := if follow then length - 1 else l

/-- A RANGE for the bounds of R47: `iPlace` and `lPlace` are the places of I and L in the request's list. An in point above
the last frame names L or I by a free value when both were given (log 9). -/
def boundsFault (s : State) (follow : Bool) (i l length iPlace lPlace : Nat) : Option Nat :=
  if i > chosenLast follow l length then
    some (if !follow && Config.orderDetailNamesL s.freeDraws then lPlace else iPlace)
  else if !follow && decide (l + 1 > length) then some lPlace
  else none

/-- Whether the bounds of a request are refused with a detail byte drawn from the free values (R47, log 9). -/
def refuseBounds (s : State) (t : Ticket) (place : Nat) : State := (s.refuseRange t place).draw

/-- The period P of a binding: of its override, or of the clip's rate code (R1, R50). -/
def periodOf (override : Option Nat) (rate : Nat) : Nat := ratePeriod (override.getD rate)

/-- The new binding in the channel record (R50 steps 4 to 6). -/
def Channel.rebound (ch : Channel) (a : ChanBindArgs) (l rate : Nat) : Channel :=
  { ch.unbound with
    clip := a.clip, view := some a.view, inPoint := a.inPoint, lastFrame := l, loop := a.loop, follow := a.follow
    alignDefault := a.alignDefault, rateOverride := overrideItem a.rateOverride
    period := periodOf (overrideItem a.rateOverride) rate, pos := 16 * (a.inPoint : Int)
    phase := .sustain, remaining := 0, state := .idle }

/-- A CHAN_BIND that passes its checks (R49, R50). -/
def bindChannel (s : State) (a : ChanBindArgs) : State :=
  let clip := s.clip a.clip
  let old := s.chan a.channel
  let s1 := claimView (moveBind s old.clip a.clip) a.view
  let s2 := endStart (endCue s1 a.channel .superseded) a.channel .superseded
  let s3 := releaseViewOpt (releaseList s2 a.channel) old.view
  s3.modChan a.channel (fun ch => ch.rebound a (chosenLast a.follow a.lastFrame clip.length) clip.rate)

/-- The items of a CHAN_BIND answered OK (R50, R187). -/
def bindItems (c : Clip) (ch : Channel) : List Item :=
  [itemFlag c.growing, item4 ch.lastFrame, item4 ch.period, item4 c.length]

/-- CHAN_BIND at the Channel Controller (R49, R50). -/
def doChanBind (a : ChanBindArgs) (t : Ticket) (s : State) : State :=
  let clip := s.clip a.clip
  if badChannel s a.channel then s.refuse t .badHandle
  else if (s.chan a.channel).state = .running then s.refuse t .badState
  else if a.rateOverride > 7 ∧ a.rateOverride ≠ 255 then s.refuseRange t 6
  else
    match bindFault s a.clip with
    | some r => s.refuse t r
    | none =>
      if !viewDefined s a.view then s.refuse t .badHandle
      else
        match boundsFault s a.follow a.inPoint a.lastFrame clip.length 8 9 with
        | some p => refuseBounds s t p
        | none =>
          let s1 := bindChannel s a
          s1.reply t .ok (bindItems clip (s1.chan a.channel))

/-- CHAN_BIND (R49, R50). -/
def execChanBind (tag : Nat) (a : ChanBindArgs) (s : State) : Host.Outcome State Fault Refusal :=
  .next (takeAs tag (.chanBind a) (doChanBind a) s)

/-- The channel with the loop, follow and range of a CHAN_OPTIONS (R51). -/
def Channel.withOptions (ch : Channel) (a : ChanOptionsArgs) (l : Nat) : Channel :=
  { ({ ch with loop := a.loop, follow := a.follow }).withRange a.inPoint l with
    alignDefault := a.alignDefault, leadMargin := a.leadMargin }

/-- Whether a CHAN_OPTIONS leaves loop, follow, I and L as they are (R51). -/
def Channel.sameOptions (ch : Channel) (a : ChanOptionsArgs) (l : Nat) : Bool :=
  ch.loop == a.loop && ch.follow == a.follow && ch.inPoint == a.inPoint && ch.lastFrame == l

/-- A CHAN_OPTIONS that passes its checks (R51). -/
def setOptions (s : State) (a : ChanOptionsArgs) (l : Nat) : State :=
  let ch := s.chan a.channel
  if ch.state = .running then
    let s1 := s.modChan a.channel (fun ch => { ch with alignDefault := a.alignDefault, leadMargin := a.leadMargin })
    if ch.sameOptions a l then s1
    else courseChange s1 a.channel .trim ch.dueIndex (fun ch => ch.withOptions a l)
  else recompute (s.modChan a.channel (fun ch => ch.withOptions a l)) a.channel .trim ch.dueIndex

/-- CHAN_OPTIONS at the Channel Controller (R51). -/
def doChanOptions (a : ChanOptionsArgs) (t : Ticket) (s : State) : State :=
  let ch := s.chan a.channel
  let length := (s.clip ch.clip).length
  if badChannel s a.channel then s.refuse t .badHandle
  else if ch.clip = 0 then s.refuse t .badState
  else if a.leadMargin > Config.maxLead then s.refuseRange t 7
  else
    match boundsFault s a.follow a.inPoint a.lastFrame length 5 6 with
    | some p => refuseBounds s t p
    | none =>
      let s1 := setOptions s a (chosenLast a.follow a.lastFrame length)
      let n := s1.chan a.channel
      s1.reply t .ok [item4 n.inPoint, item4 n.lastFrame, item4s n.pos]

/-- CHAN_OPTIONS (R51). -/
def execChanOptions (tag : Nat) (a : ChanOptionsArgs) (s : State) : Host.Outcome State Fault Refusal :=
  .next (takeAs tag (.chanOptions a) (doChanOptions a) s)

/-! ## CHAN_DEPTH -/

/-- The channel with new depth settings; a PRIME count above the new prime periods is lowered (R52). -/
def Channel.withDepths (ch : Channel) (d : Nat × Nat × Nat) : Channel :=
  let lower := ch.phase == .prime && decide (ch.remaining > d.2.2)
  { ch.judged with
    primeDepth := d.1, sustainDepth := d.2.1, primePeriods := d.2.2
    remaining := if lower then d.2.2 else ch.remaining
    phase := if lower && d.2.2 == 0 then .sustain else ch.phase }

/-- CHAN_DEPTH at the Channel Controller (R52). -/
def doChanDepth (a : ChanDepthArgs) (t : Ticket) (s : State) : State :=
  if badChannel s a.channel then s.refuse t .badHandle
  else
    let d := depthItems a.primeDepth a.sustainDepth a.primePeriods
    (s.modChan a.channel (fun ch => ch.withDepths d)).reply t .ok (depthReport d)

/-- CHAN_DEPTH (R52). -/
def execChanDepth (tag : Nat) (a : ChanDepthArgs) (s : State) : Host.Outcome State Fault Refusal :=
  .next (takeAs tag (.chanDepth a) (doChanDepth a) s)

/-! ## CHAN_CUE and CHAN_JUMP -/

/-- CHAN_CUE at the Channel Controller (R53). -/
def doChanCue (a : PositionArgs) (t : Ticket) (s : State) : State :=
  let ch := s.chan a.channel
  if badChannel s a.channel then s.refuse t .badHandle
  else if ch.clip = 0 ∨ ch.state = .running then s.refuse t .badState
  else if (s.clip ch.clip).length = 0 then s.refuseEmptyClip t
  else cueTo s a.channel t a.position

/-- CHAN_CUE (R53). -/
def execChanCue (tag : Nat) (a : PositionArgs) (s : State) : Host.Outcome State Fault Refusal :=
  .next (takeAs tag (.chanCue a) (doChanCue a) s)

/-- A CHAN_JUMP in RUNNING: a course change of the rebuild class to the position clamped (R62), which the due index no longer has
from the edge (R77, log 39). DESIGN CHOICE: R62 has its answer report the position and n_c alone, where R187's row has the short
and entries-counted items before them; both are 0 (log 55). -/
def jumpRunning (s : State) (c : Nat) (t : Ticket) (position : Int) : State :=
  let ch := s.chan c
  let p := clampPosition ch.inPoint ch.lastFrame position
  (courseChange s c .rebuild ch.dueIndex (fun ch => { ch with pos := p, edge := false, atEdge := false })).reply t .ok
    [item1 0, item1 0, item4s p, item4 ch.dueIndex.toNat]

/-- CHAN_JUMP at the Channel Controller (R62). -/
def doChanJump (a : PositionArgs) (t : Ticket) (s : State) : State :=
  let ch := s.chan a.channel
  if badChannel s a.channel then s.refuse t .badHandle
  else if ch.clip = 0 ∨ ch.state = .idle then s.refuse t .badState
  else if (s.clip ch.clip).length = 0 then s.refuseEmptyClip t
  else if ch.state = .running then jumpRunning s a.channel t a.position
  else cueTo s a.channel t a.position

/-- CHAN_JUMP (R62). -/
def execChanJump (tag : Nat) (a : PositionArgs) (s : State) : Host.Outcome State Fault Refusal :=
  .next (takeAs tag (.chanJump a) (doChanJump a) s)

/-! ## CHAN_START -/

/-- The start a request asks for (R55). -/
inductive StartAsk where
  | now | atTime | atReference
  deriving DecidableEq, Repr

/-- The form of a CHAN_START, DEFAULT by the binding's align default; none for a code above 3 (R55, R185). -/
def startAsk (form : Nat) (align : Bool) : Option StartAsk :=
  match form with
  | 0 => some .now
  | 1 => some .atTime
  | 2 => some .atReference
  | 3 => some (if align then .atReference else .now)
  | _ => none

/-- A start becomes pending (R55). -/
def setStart (s : State) (c : Nat) (f : StartForm) (t : Ticket) : State :=
  s.modChan c (fun ch => { ch with start := some ⟨f, t⟩ })

/-- The Timebase Unit is asked for a start wait (R167). -/
def askWait (s : State) (c period : Nat) : State :=
  { s with time := { s.time with waits := tset none s.time.waits c (some (waitLimit s.time period)) } }

/-- A start of a form, once the cue is complete and an older start is answered (R55). -/
def startAs (s : State) (c : Nat) (ask : StartAsk) (time : Nat) (t : Ticket) : State :=
  match ask with
  | .now => fireStart s c t s.now false
  | .atTime => if time ≤ s.now then fireStart s c t s.now false else setStart s c (.atTime time) t
  | .atReference => askWait (setStart s c .atReference t) c (s.chan c).period

/-- CHAN_START at the Channel Controller (R55). -/
def doChanStart (a : ChanStartArgs) (t : Ticket) (s : State) : State :=
  let ch := s.chan a.channel
  if badChannel s a.channel then s.refuse t .badHandle
  else if ch.state = .idle ∨ ch.state = .running then s.refuse t .badState
  else
    match startAsk a.form ch.alignDefault with
    | none => s.refuseRange t 2
    | some ask =>
      if (s.clip ch.clip).length = 0 then s.refuseEmptyClip t
      else
        let s1 := endStart s a.channel .superseded
        let s2 := if ch.state = .cueing then cutCue s1 a.channel else s1
        startAs s2 a.channel ask a.time t

/-- CHAN_START (R55). -/
def execChanStart (tag : Nat) (a : ChanStartArgs) (s : State) : Host.Outcome State Fault Refusal :=
  .next (takeAs tag (.chanStart a) (doChanStart a) s)

/-! ## CHAN_HOLD -/

/-- The channel goes HELD outside RUNNING: a cue request and a pending start are SUPERSEDED (R61). -/
def holdStill (s : State) (c : Nat) : State :=
  let s1 := endStart (endCue s c .superseded) c .superseded
  if (s.chan c).state = .held then s1
  else s1.modChan c (fun ch => { ch with state := .held, base := some s.now })

/-- The channel goes HELD from RUNNING: a course change of the hold class (R58, R60, R61). EDGE falls, but a due
index at the live edge stays there, since the period before it put it there (R77, log 39). -/
def holdRunning (s : State) (c : Nat) : State :=
  let ch := s.chan c
  let s1 := revokeFrom (endCourse s c .superseded) c ch.dueIndex false
  let s2 := match ch.course with
    | some q => recompute s1 c .trim q.change
    | none => s1
  s2.modChan c (fun ch => { ch with state := .held, dueTime := none, base := some s.now, edge := false })

/-- CHAN_HOLD at the Channel Controller (R61). -/
def doChanHold (c : Nat) (t : Ticket) (s : State) : State :=
  if badChannel s c then s.refuse t .badHandle
  else if (s.chan c).state = .idle then s.refuse t .badState
  else
    let s1 := if (s.chan c).state = .running then holdRunning s c else holdStill s c
    s1.reply t .ok [item4 (s1.chan c).dueIndex.toNat, item4s (s1.chan c).pos]

/-- CHAN_HOLD (R61). -/
def execChanHold (tag channel : Nat) (s : State) : Host.Outcome State Fault Refusal :=
  .next (takeAs tag (.chanHold channel) (doChanHold channel) s)

/-! ## CHAN_SPEED -/

/-- The change period of a CHAN_SPEED: the due index, or an apply period later than it (R58, R59). -/
def changePeriod (due : Word32) (apply : Option Nat) : Word32 :=
  match apply with
  | some n => if later (BitVec.ofNat 32 n) due then BitVec.ofNat 32 n else due
  | none => due

/-- A speed change in RUNNING (R59, R60). -/
def speedRunning (s : State) (c : Nat) (t : Ticket) (v : Int) (apply : Option Nat) : State :=
  let ch := s.chan c
  let n := changePeriod ch.dueIndex apply
  if n = ch.dueIndex then
    if v = ch.speed ∧ ch.course = none then s.reply t .ok (speedItems v n.toNat)
    else (courseChange s c (speedClass ch.speed v) n (fun ch => { ch with speed := v })).reply t .ok
      (speedItems v n.toNat)
  else courseChange s c (speedClass ch.speed v) n (fun ch => { ch with course := some ⟨v, n, t⟩ })

/-- A speed change in CUEING, CUED or HELD (R59). -/
def speedStill (s : State) (c : Nat) (v : Int) : State :=
  let ch := s.chan c
  let k := speedClass ch.speed v
  recompute (s.modChan c (fun ch => ({ ch with speed := v }).restart k)) c k ch.dueIndex

/-- CHAN_SPEED at the Channel Controller (R59). -/
def doChanSpeed (a : ChanSpeedArgs) (t : Ticket) (s : State) : State :=
  let v := clampSpeed a.speed
  if badChannel s a.channel then s.refuse t .badHandle
  else
    match (s.chan a.channel).state with
    | .running => speedRunning s a.channel t v a.apply
    | .idle => (s.modChan a.channel (fun ch => { ch with speed := v })).reply t .ok (speedItems v 0)
    | _ => (speedStill s a.channel v).reply t .ok (speedItems v 0)

/-- CHAN_SPEED (R59). -/
def execChanSpeed (tag : Nat) (a : ChanSpeedArgs) (s : State) : Host.Outcome State Fault Refusal :=
  .next (takeAs tag (.chanSpeed a) (doChanSpeed a) s)

/-! ## CHAN_CLOSE, CHAN_ASK, SLOT_RETURN -/

/-- CHAN_CLOSE at the Channel Controller (R68). -/
def doChanClose (c : Nat) (t : Ticket) (s : State) : State :=
  if badChannel s c then s.refuse t .badHandle else closeChannel s c t

/-- CHAN_CLOSE (R68). -/
def execChanClose (tag channel : Nat) (s : State) : Host.Outcome State Fault Refusal :=
  .next (takeAs tag (.chanClose channel) (doChanClose channel) s)

/-- Page 0 of CHAN_ASK (R188). -/
def chanPage0 (ch : Channel) (r : Ring) : List Item :=
  [item1 ch.state.code, item1 (noneItem ch.view), itemFlag ch.loop, itemFlag ch.follow, item1 ch.phase.code,
    item1 ch.depth, item1 ch.flags.toNat, itemFlag ch.course.isSome, item2 ch.clip, item2s ch.speed, item2 ch.remaining,
    item1 r.hostHeld, item1 r.free, item4 ch.inPoint, item4 ch.lastFrame]

/-- Page 1 of CHAN_ASK (R188). -/
def chanPage1 (ch : Channel) : List Item :=
  [itemFlag ch.start.isSome, itemFlag ch.lastRecord.isSome, item4s ch.pos, item4 ch.period, item4 ch.dueIndex.toNat,
    item4 ((ch.lastRecord.map BitVec.toNat).getD 0), item4 ((ch.course.map (fun q => q.change.toNat)).getD 0)]

/-- Page 2 of CHAN_ASK (R188). -/
def chanPage2 (ch : Channel) : List Item := [itemFlag ch.dueTime.isSome, item8 (ch.dueTime.getD 0)]

/-- A page of CHAN_ASK; a page above 2 is taken as 2 (R188). -/
def chanItems (ch : Channel) (r : Ring) (page : Nat) : List Item :=
  match page with
  | 0 => chanPage0 ch r
  | 1 => chanPage1 ch
  | _ => chanPage2 ch

/-- CHAN_ASK at the Channel Controller (R69, R188). -/
def doChanAsk (a : PageAskArgs) (t : Ticket) (s : State) : State :=
  if badChannel s a.number then s.refuse t .badHandle
  else s.reply t .ok (chanItems (s.chan a.number) (s.ring a.number) a.page)

/-- CHAN_ASK (R69, R188). -/
def execChanAsk (tag : Nat) (a : PageAskArgs) (s : State) : Host.Outcome State Fault Refusal :=
  .next (takeAs tag (.chanAsk a) (doChanAsk a) s)

/-- SLOT_RETURN at the Delivery Engine (R102). -/
def doSlotReturn (a : SlotReturnArgs) (t : Ticket) (s : State) : State :=
  if badChannel s a.channel then s.refuse t .badHandle
  else
    let n := min a.count (s.ring a.channel).hostHeld
    let s1 := s.modRing a.channel (fun r => { r with returned := r.returned + BitVec.ofNat 32 n })
    s1.reply t .ok [item1 n, item1 (s1.ring a.channel).free]

/-- SLOT_RETURN (R102). -/
def execSlotReturn (tag : Nat) (a : SlotReturnArgs) (s : State) : Host.Outcome State Fault Refusal :=
  .next (takeAs tag (.slotReturn a) (doSlotReturn a) s)

/-! ## Events -/

/-- TRANSFER_END (R99, R103). -/
def execTransferEnd (channel : Nat) (s : State) : Host.Outcome State Fault Refusal :=
  .next (if (s.ring channel).transfer.isSome then endEvent s (endTransfer s channel) else s)

/-- A held house time has been reached (R161). -/
def reached (s : State) (t : Option Nat) : Bool :=
  match t with
  | some t => decide (t ≤ s.now)
  | none => false

/-- CUE_EXPIRY (R54). -/
def execCueExpiry (channel : Nat) (s : State) : Host.Outcome State Fault Refusal :=
  let ch := s.chan channel
  .next (if ch.state = .cueing ∧ reached s ch.cueExpiry then endEvent s (cutCue s channel) else s)

/-- The start time of a pending AT_TIME start (R56). -/
def Channel.startTime (ch : Channel) : Option Nat :=
  match ch.start with
  | some ⟨.atTime t, _⟩ => some t
  | _ => none

/-- START_TIME_REACHED (R56, R57). -/
def execStartTimeReached (channel : Nat) (s : State) : Host.Outcome State Fault Refusal :=
  let t := (s.chan channel).startTime
  .next (if reached s t then endEvent s (firePending s channel (t.getD 0) false) else s)

/-- START_WAIT_LIMIT (R167). -/
def execStartWaitLimit (channel : Nat) (s : State) : Host.Outcome State Fault Refusal :=
  .next (if reached s (tget none s.time.waits channel) then endEvent s (firePending s channel s.now true) else s)

/-- DUE_TIME (R88, R90). -/
def execDueTime (channel : Nat) (s : State) : Host.Outcome State Fault Refusal :=
  let ch := s.chan channel
  .next (if ch.state = .running ∧ reached s ch.dueTime then endEvent s (duePeriod s channel) else s)

end Sys2Proof.Machine
end

