-- ==== Sys2Proof/Machine/LinkCommands.lean ====
section
/-! DEFINITION. The volume and member requests and the events of the media links (chapter 8). -/

namespace Sys2Proof.Machine

/-! ## Events of a link -/

/-- DONE_RECEIVED: a DONE whose header check fails is discarded (R142, R144). -/
def execDoneReceived (link : Nat) (m : DoneMsg) (s : State) : Host.Outcome State Fault Refusal :=
  .next (if m.headerGood then endEvent s (takeDone s link m) else s)

/-- House time has reached the expiry of a BUSY tag (R145). -/
def tagExpired (s : State) (m t : Nat) : Bool :=
  match tget TagState.free (s.link m).tags t with
  | .busy e _ => decide (e ≤ s.now)
  | _ => false

/-- TAG_EXPIRY (R145). -/
def execTagExpiry (link readTag : Nat) (s : State) : Host.Outcome State Fault Refusal :=
  .next (if tagExpired s link readTag then endEvent s (expireTag s link readTag) else s)

/-- LINK_DOWN (R147). -/
def execLinkDown (link : Nat) (s : State) : Host.Outcome State Fault Refusal := .next (endEvent s (dropLink s link))

/-- A link has trained with its member: it sends RESET until the first RESET_DONE since power-on reset, and is UP from
then on (R147, R160). -/
def raiseLink (s : State) (m : Nat) : State :=
  if (s.link m).resetSeen then s.modLink m (fun l => { l with up := true }) else s.emit (.sendReset m)

/-- LINK_UP (R147, R160). -/
def execLinkUp (link : Nat) (s : State) : Host.Outcome State Fault Refusal := .next (endEvent s (raiseLink s link))

/-- A RESET_DONE: the first since power-on reset makes the link UP (R147, R160); another ends a waiting return (R154); one
that no return waits for is discarded (log 17). -/
def takeResetDone (s : State) (m : Nat) : State :=
  let l := s.link m
  if !l.resetSeen then s.modLink m (fun l => { l with up := true, resetSeen := true })
  else
    match l.ret with
    | some (t, _) => returnMember s m t
    | none => s

/-- RESET_DONE (R154, R160). -/
def execResetDone (link : Nat) (s : State) : Host.Outcome State Fault Refusal :=
  .next (endEvent s (takeResetDone s link))

/-- House time has reached the expiry of a waiting return (R154). -/
def returnExpired (s : State) (m : Nat) : Bool :=
  match (s.link m).ret with
  | some (_, e) => decide (e ≤ s.now)
  | none => false

/-- RETURN_EXPIRY (R154). -/
def execReturnExpiry (link : Nat) (s : State) : Host.Outcome State Fault Refusal :=
  .next (if returnExpired s link then endEvent s (endReturn s link 2) else s)

/-! ## VOLUME_DEFINE, VOLUME_DISSOLVE -/

/-- The first check a VOLUME_DEFINE fails, of those on its arguments: a result with the place it names (R157, log 22). -/
def defineFault (a : VolumeDefineArgs) : Option (Result × Nat) :=
  if a.volume ≥ Config.volumes then some (.badHandle, 0)
  else if a.width < 2 ∨ a.width > 16 then some (.range, 2)
  else if a.members.any (fun m => decide (m ≥ Config.members)) then some (.badHandle, 0)
  else if !decide a.members.Nodup then some (.range, 5)
  else if !([16, 32, 64, 128, 256].contains a.unit) then some (.range, 4)
  else if a.parity ∧ a.width < 3 then some (.range, 3)
  else if a.memberLength < a.unit then some (.range, 7)
  else if a.base + a.memberLength > Config.memberSpace then some (.range, 0)
  else none

/-- The first listed member of another volume (R157 check 9). -/
def foreignMember (s : State) (a : VolumeDefineArgs) : Option Nat :=
  a.members.find? (fun m => (s.link m).member != .unused && (s.link m).volume != some a.volume)

/-- The number of listed members that are FAILED (R158). -/
def failedMembers (s : State) (ms : List Nat) : Nat := (ms.filter (fun m => (s.link m).member == .failed)).length

/-- VOLUME_DEFINE at the Media Link Controllers (R157, R158). -/
def doVolumeDefine (a : VolumeDefineArgs) (t : Ticket) (s : State) : State :=
  let v := s.volume a.volume
  match defineFault a with
  | some (r, p) => s.replyDetail t r (BitVec.ofNat 8 p) []
  | none =>
    if v.clipCount ≠ 0 then s.replyDetail t .bound 255 []
    else
      match foreignMember s a with
      | some m => s.replyDetail t .bound (BitVec.ofNat 8 m) []
      | none =>
        if v.defined ∧ v.members.any (memberBusy s) then s.refuse t .badState
        else
          let s1 := defineVolume s a
          s1.reply t .ok [itemFlag v.defined, item1 (failedMembers s1 a.members), item8 (s1.volume a.volume).capacity]

/-- VOLUME_DEFINE (R157, R158). -/
def execVolumeDefine (tag : Nat) (a : VolumeDefineArgs) (s : State) : Host.Outcome State Fault Refusal :=
  .next (takeAs tag (.volumeDefine a) (doVolumeDefine a) s)

/-- VOLUME_DISSOLVE at the Media Link Controllers (R159). -/
def doVolumeDissolve (v : Nat) (t : Ticket) (s : State) : State :=
  let w := s.volume v
  if v ≥ Config.volumes ∨ !w.defined then s.refuse t .badHandle
  else if w.clipCount ≠ 0 then s.replyDetail t .bound 255 []
  else if w.members.any (memberBusy s) then s.refuse t .badState
  else (dissolve s v).reply t .ok [item1 w.members.length]

/-- VOLUME_DISSOLVE (R159). -/
def execVolumeDissolve (tag volume : Nat) (s : State) : Host.Outcome State Fault Refusal :=
  .next (takeAs tag (.volumeDissolve volume) (doVolumeDissolve volume) s)

/-! ## MEMBER_HOLD, MEMBER_RELEASE, MEMBER_RETURN, MEMBER_ASK -/

/-- A member number that is out of range or UNUSED (R150, R152, R153). -/
def badMember (s : State) (m : Nat) : Bool := decide (m ≥ Config.members) || (s.link m).member == .unused

/-- The volume of a member. -/
def memberVolume (s : State) (m : Nat) : Volume := (((s.link m).volume).map s.volume).getD Volume.initial

/-- Every other member of the member's volume is ONLINE (R150 check 4). -/
def othersOnline (s : State) (m : Nat) : Bool := (memberVolume s m).members.all (fun k => k == m || online s k)

/-- A hold accepted: DRAINING while a tag is BUSY, else HELD at once (R150). -/
def holdMember (s : State) (m : Nat) (t : Ticket) : State :=
  let s1 := s.modLink m (fun l => { l with drainOk := 0, drainFailed := 0 })
  if (s.link m).busyTags = [] then (setMember s1 m .held).reply t .ok [item2 0, item2 0]
  else setMember (s1.modLink m (fun l => { l with hold := some t })) m .draining

/-- MEMBER_HOLD at the Media Link Controllers (R150). -/
def doMemberHold (m : Nat) (t : Ticket) (s : State) : State :=
  if badMember s m then s.refuse t .badHandle
  else if !online s m then s.refuse t .badState
  else if !(memberVolume s m).parity then s.refuse t .refused
  else if !othersOnline s m then s.refuse t .refused
  else holdMember s m t

/-- MEMBER_HOLD (R150). -/
def execMemberHold (tag member : Nat) (s : State) : Host.Outcome State Fault Refusal :=
  .next (takeAs tag (.memberHold member) (doMemberHold member) s)

/-- MEMBER_RELEASE at the Media Link Controllers (R152). -/
def doMemberRelease (m : Nat) (t : Ticket) (s : State) : State :=
  let k := (s.link m).member
  if badMember s m then s.refuse t .badHandle
  else if k ≠ .draining ∧ k ≠ .held then s.refuse t .badState
  else (endHold (setMember s m .online) m .superseded).reply t .ok [item1 k.code]

/-- MEMBER_RELEASE (R152). -/
def execMemberRelease (tag member : Nat) (s : State) : Host.Outcome State Fault Refusal :=
  .next (takeAs tag (.memberRelease member) (doMemberRelease member) s)

/-- MEMBER_RETURN at the Media Link Controllers; refused with BAD_STATE it reports cause 3 (R153, R187). -/
def doMemberReturn (m : Nat) (t : Ticket) (s : State) : State :=
  let l := s.link m
  if badMember s m then s.refuse t .badHandle
  else if l.member ≠ .failed ∨ l.ret.isSome ∨ !l.up then s.reply t .badState [item1 0, item1 3]
  else (s.modLink m (fun l => { l with ret := some (t, s.now + Config.returnTicks) })).emit (.sendReset m)

/-- MEMBER_RETURN (R153). -/
def execMemberReturn (tag member : Nat) (s : State) : Host.Outcome State Fault Refusal :=
  .next (takeAs tag (.memberReturn member) (doMemberReturn member) s)

/-- The items of MEMBER_ASK (R155, R187). -/
def memberItems (l : Link) : List Item :=
  [item1 l.member.code, itemFlag l.up, item1 (noneItem l.volume), item1 (noneItem l.index),
    item1 (l.countTags (· == .free)), item1 (l.countTags TagState.isBusy), item1 (l.countTags (· == .quarantined)),
    item1 (l.countTags TagState.isBusyPin), item1 l.failures, itemFlag l.hold.isSome, itemFlag l.ret.isSome]

/-- MEMBER_ASK at the Media Link Controllers (R155). -/
def doMemberAsk (m : Nat) (t : Ticket) (s : State) : State :=
  if m ≥ Config.members then s.refuse t .badHandle else s.reply t .ok (memberItems (s.link m))

/-- MEMBER_ASK (R155). -/
def execMemberAsk (tag member : Nat) (s : State) : Host.Outcome State Fault Refusal :=
  .next (takeAs tag (.memberAsk member) (doMemberAsk member) s)

end Sys2Proof.Machine
end

