-- ==== Sys2Proof/Machine/MapCommands.lean ====
section
/-! DEFINITION. The map requests (chapter 1) and VIEW_DEFINE (2.1). Each request's work at its owner is its `do` definition;
its command is that work done when the request is taken. -/

namespace Sys2Proof.Machine

/-- The capacity in bytes of a clip's volume, capped at 2^48 (R11, R14). -/
def byteCapacity (s : State) (h : Nat) : Nat :=
  min ((s.volume (s.clip h).volume).capacity * Config.sector) Config.volumeSpace

/-! ## CLIP_MAKE, CLIP_AMEND -/

/-- A new clip's record (R8). -/
def newClip (a : ClipMakeArgs) : Clip := ⟨.live, a.cookie, a.volume, a.rate, 0, a.growing, [], 0, 0⟩

/-- CLIP_MAKE at the Frame Map (R8). -/
def doClipMake (a : ClipMakeArgs) (t : Ticket) (s : State) : State :=
  if a.volume ≥ Config.volumes ∨ !(s.volume a.volume).defined then s.refuse t .badHandle
  else if a.rate > 7 then s.refuseRange t 3
  else
    match freeHandle s with
    | none => s.refuse t .noSpace
    | some h => (countClip (s.setClip h (newClip a)) a.volume (· + 1)).reply t .ok [item2 h]

/-- CLIP_MAKE (R8). -/
def execClipMake (tag : Nat) (a : ClipMakeArgs) (s : State) : Host.Outcome State Fault Refusal :=
  .next (takeAs tag (.clipMake a) (doClipMake a) s)

/-- The clip's length and cookie as amended, growing still as it was. -/
def amendLength (s : State) (a : ClipAmendArgs) : State :=
  s.setClip a.clip { s.clip a.clip with length := a.length, cookie := a.cookie }

/-- The clip's growing as amended. -/
def amendGrowing (s : State) (a : ClipAmendArgs) : State :=
  s.setClip a.clip { s.clip a.clip with growing := a.growing }

/-- A CLIP_AMEND that passes its checks: the length change reaches every bound channel before the change of growing (R9, R10),
and a list ends its extension before growing is set (R66). DESIGN CHOICE: the bound channels meet each change in number order, on
which R10 is silent, and their lists give up their entries in that order (log 51). -/
def amendClip (s : State) (a : ClipAmendArgs) : State :=
  let c := s.clip a.clip
  let bound := boundChannels s a.clip
  let s1 := amendLength s a
  let s2 := if a.length = c.length then s1 else bound.foldl (lengthChanged a.length) s1
  let s3 := amendGrowing (if !c.growing ∧ a.growing then bound.foldl growthBegan s2 else s2) a
  if c.growing ∧ !a.growing then bound.foldl growthEnded s3 else s3

/-- CLIP_AMEND at the Frame Map (R9). -/
def doClipAmend (a : ClipAmendArgs) (t : Ticket) (s : State) : State :=
  let c := s.clip a.clip
  if badClip s a.clip then s.refuse t .badHandle
  else if c.state ≠ .live then s.refuse t .badState
  else if a.length > Config.maxLength then s.refuseRange t 3
  else (amendClip s a).reply t .ok [itemFlag c.growing, item4 c.length]

/-- CLIP_AMEND (R9). -/
def execClipAmend (tag : Nat) (a : ClipAmendArgs) (s : State) : Host.Outcome State Fault Refusal :=
  .next (takeAs tag (.clipAmend a) (doClipAmend a) s)

/-! ## Group writes -/

/-- The first two checks of a group write: the handle and the clip's state (R11, R13, R15). -/
def clipFault (s : State) (h : Nat) : Option Result :=
  if badClip s h then some .badHandle else if (s.clip h).state ≠ .live then some .badState else none

/-- A group write carried out: the slot replaced, the serial spent, the hand-offs made (R12, R14, R16). -/
def writeGroup (s : State) (h g serial : Nat) (v : GroupSlot) : State :=
  let old := ((s.clip h).slot g).serial
  handOff (spendSerial (writeSlot s h g v) serial) h g old

/-- A page the write needs and the pool has not (R11, R13). -/
def pageWanting (s : State) (h g : Nat) : Bool := (s.clip h).pageAbsent (g / 256) && s.map.freePages == 0

/-- GROUP_FIX at the Frame Map (R11, R12). -/
def doGroupFix (a : GroupFixArgs) (t : Ticket) (s : State) : State :=
  match clipFault s a.clip with
  | some r => s.refuse t r
  | none =>
    if a.group > 16383 then s.refuseRange t 3
    else if a.present < 1 ∨ a.present > 64 then s.refuseRange t 2
    else if a.size < 1 ∨ a.size > Config.maxFrame then s.refuseRange t 4
    else if a.base + a.present * a.size > byteCapacity s a.clip then s.refuseRange t 0
    else
      match s.map.serial with
      | none => s.refuse t .serialSpent
      | some n =>
        if pageWanting s a.clip a.group then s.refuse t .noSpace
        else
          let old := (s.clip a.clip).slot a.group
          (writeGroup s a.clip a.group n (.uniform n a.base a.size a.present)).reply t .ok
            [item1 old.code, item4 n, item4 old.serial]

/-- GROUP_FIX (R11, R12). -/
def execGroupFix (tag : Nat) (a : GroupFixArgs) (s : State) : Host.Outcome State Fault Refusal :=
  .next (takeAs tag (.groupFix a) (doGroupFix a) s)

/-- An entry of a list that fails (R14). -/
def badListEntry (cap : Nat) (e : Nat × Nat) : Bool :=
  decide (e.2 > Config.maxFrame) || (e.2 != 0 && decide (e.1 + e.2 > cap))

/-- A frame table's entry from a list entry; size 0 is ABSENT (R13). -/
def tableEntry (e : Nat × Nat) : Option Location := if e.2 = 0 then none else some ⟨e.1, e.2⟩

/-- The 64 entries of the frame table a list fills (R13). -/
def tableOf (es : List (Nat × Nat)) : List (Option Location) :=
  es.map tableEntry ++ List.replicate (64 - es.length) none

/-- The index of the first failing entry; 64 for a list that could not be read; none when every entry passes (R14). -/
def listFault (cap n : Nat) (list : Option (List Byte)) : Option Nat :=
  match list with
  | none => some 64
  | some b => (decodeList n b).findIdx? (badListEntry cap)

/-- The fetch is over: what it set aside returns to its pools, from where the write takes it (R14). -/
def closeFetch (s : State) (f : Fetch) : State :=
  { s with map := { s.map with
    fetch := none
    freePages := s.map.freePages + one f.pageAside
    freeTables := s.map.freeTables + one f.tableAside } }

/-- A GROUP_LIST whose entries all pass is carried out (R14). -/
def fillGroup (s : State) (f : Fetch) (es : List (Nat × Nat)) : State :=
  match s.map.serial with
  | none => s.refuse f.ticket .serialSpent
  | some n =>
    let old := (s.clip f.clip).slot f.group
    let table := tableOf es
    (writeGroup s f.clip f.group n (.listed n table)).reply f.ticket .ok
      [item1 old.code, item1 (table.filter (·.isSome)).length, item4 n, item4 old.serial]

/-- The end of the fetch of a GROUP_LIST (R14). -/
def endFetch (s : State) (f : Fetch) (list : Option (List Byte)) : State :=
  let s1 := closeFetch s f
  match listFault (byteCapacity s f.clip) f.count list with
  | some i => s1.reply f.ticket .range [item1 0, item1 i]
  | none => fillGroup s1 f (decodeList f.count (list.getD []))

/-- A GROUP_LIST accepted: table and page set aside; the list's read starts, or with no entry the fetch ends at once
(R13). -/
def startFetch (s : State) (a : GroupListArgs) (t : Ticket) : State :=
  let c := s.clip a.clip
  let f : Fetch := ⟨t, a.clip, a.group, a.count, !(c.slot a.group).isListed, c.pageAbsent (a.group / 256)⟩
  let s1 := { s with map := { s.map with
    fetch := some f
    freePages := s.map.freePages - one f.pageAside
    freeTables := s.map.freeTables - one f.tableAside } }
  if a.count = 0 then endFetch s1 f (some []) else s1.emit (.readHost (BitVec.ofNat 64 a.address) (16 * a.count))

/-- GROUP_LIST at the Frame Map: acceptance (R13). -/
def doGroupList (a : GroupListArgs) (t : Ticket) (s : State) : State :=
  match clipFault s a.clip with
  | some r => s.refuse t r
  | none =>
    if a.group > 16383 then s.refuseRange t 2
    else if a.count > 64 then s.refuseRange t 3
    else if s.map.serial = none then s.refuse t .serialSpent
    else if !((s.clip a.clip).slot a.group).isListed && (s.map.freeTables == 0 || pageWanting s a.clip a.group) then
      s.refuse t .noSpace
    else startFetch s a t

/-- GROUP_LIST (R13). -/
def execGroupList (tag : Nat) (a : GroupListArgs) (s : State) : Host.Outcome State Fault Refusal :=
  .next (takeAs tag (.groupList a) (doGroupList a) s)

/-- GROUP_DROP at the Frame Map (R15). -/
def doGroupDrop (a : GroupDropArgs) (t : Ticket) (s : State) : State :=
  match clipFault s a.clip with
  | some r => s.refuse t r
  | none =>
    let old := (s.clip a.clip).slot a.group
    if a.group > 16383 then s.refuseRange t 2
    else if old.isEmpty then s.reply t .ok [item1 0, item1 0, item4 0]
    else
      let s1 := writeSlot s a.clip a.group .empty
      (handOff s1 a.clip a.group old.serial).reply t .ok
        [item1 old.code, itemFlag ((s1.clip a.clip).pageAbsent (a.group / 256)), item4 old.serial]

/-- GROUP_DROP (R15). -/
def execGroupDrop (tag : Nat) (a : GroupDropArgs) (s : State) : Host.Outcome State Fault Refusal :=
  .next (takeAs tag (.groupDrop a) (doGroupDrop a) s)

/-! ## CLIP_RETIRE -/

/-- CLIP_RETIRE with withdraw clear (R20). -/
def retireClip (s : State) (h : Nat) (t : Ticket) : State :=
  let c := s.clip h
  if c.state = .live ∧ c.bindCount = 0 then (freeClip s h).reply t .ok [item1 1, item1 0]
  else (s.setClip h { c with state := .retiring }).reply t .ok [item1 0, item1 c.bindCount]

/-- CLIP_RETIRE with withdraw set (R21). DESIGN CHOICE: the bound channels are force-unbound in number order, on which R21 and R67
are silent, and that is the order of their list releases and release stamps (log 51). -/
def withdrawClip (s : State) (h : Nat) (t : Ticket) : State :=
  let bound := boundChannels s h
  (freeClip (bound.foldl forceUnbind s) h).reply t .ok [item1 1, item1 bound.length]

/-- CLIP_RETIRE at the Frame Map (R20, R21). -/
def doClipRetire (a : ClipRetireArgs) (t : Ticket) (s : State) : State :=
  if badClip s a.clip then s.refuse t .badHandle
  else if a.withdraw then withdrawClip s a.clip t else retireClip s a.clip t

/-- CLIP_RETIRE (R20, R21). -/
def execClipRetire (tag : Nat) (a : ClipRetireArgs) (s : State) : Host.Outcome State Fault Refusal :=
  .next (takeAs tag (.clipRetire a) (doClipRetire a) s)

/-! ## CLIP_ASK, FRAME_ASK -/

/-- The items of CLIP_ASK (R23, R187). -/
def clipItems (c : Clip) : List Item :=
  [item1 c.state.code, itemFlag c.growing, item1 c.volume, item1 c.rate, item1 c.bindCount, item1 c.pages.length,
    item2 c.groupCount, item4 c.length, item8 c.cookie]

/-- CLIP_ASK at the Frame Map (R23). -/
def doClipAsk (h : Nat) (t : Ticket) (s : State) : State :=
  if badClip s h then s.refuse t .badHandle else s.reply t .ok (clipItems (s.clip h))

/-- CLIP_ASK (R23). -/
def execClipAsk (tag clip : Nat) (s : State) : Host.Outcome State Fault Refusal :=
  .next (takeAs tag (.clipAsk clip) (doClipAsk clip) s)

/-- The store entry FRAME_ASK reports: the findable one of a PRESENT frame (R24). -/
def askedEntry (s : State) (o : LookupOutcome) (view : Nat) : Option Entry :=
  match o with
  | .present n i _ _ => (findEntry s ⟨n, i, view⟩).bind s.entry
  | _ => none

/-- The slot FRAME_ASK reports; a frame of 1,048,576 or above has none (R24). -/
def askedSlot (s : State) (h f : Nat) : GroupSlot := if f < Config.maxLength then (s.clip h).slot (f / 64) else .empty

/-- The size and address FRAME_ASK reports: 0 and 0 unless PRESENT (R24). -/
def LookupOutcome.place : LookupOutcome → Nat × Nat
  | .present _ _ a z => (z, a)
  | _ => (0, 0)

/-- The items of FRAME_ASK (R24, R187). With no entry found the two-byte reference count is 0 (R185), and the one-byte state,
reason and pin count are written 0 too, the model's choice (log 44). -/
def frameItems (s : State) (a : FrameAskArgs) : List Item :=
  let o := lookup s a.clip a.frame
  let g := askedSlot s a.clip a.frame
  let e := askedEntry s o a.view
  [item1 o.code, item1 g.code, itemFlag e.isSome, item1 ((e.map (fun e => e.state.code)).getD 0),
    item1 ((e.map (fun e => e.state.reasonCode)).getD 0), item1 ((e.map Entry.pins).getD 0),
    item2 ((e.map Entry.refs).getD 0), item4 g.serial, item4 o.place.1, item8 o.place.2]

/-- FRAME_ASK at the Frame Map (R24). -/
def doFrameAsk (a : FrameAskArgs) (t : Ticket) (s : State) : State :=
  if badClip s a.clip ∨ !viewDefined s a.view then s.refuse t .badHandle else s.reply t .ok (frameItems s a)

/-- FRAME_ASK (R24). -/
def execFrameAsk (tag : Nat) (a : FrameAskArgs) (s : State) : Host.Outcome State Fault Refusal :=
  .next (takeAs tag (.frameAsk a) (doFrameAsk a) s)

/-! ## VIEW_DEFINE -/

/-- A view's record replaced and its entries orphaned (R28, R29). -/
def changeView (s : State) (v : Nat) (defined : Bool) (h : Shape) : State :=
  orphanView (s.setView v { s.view v with defined := defined, shape := h }) v

/-- VIEW_DEFINE at the Placement Unit (R28, R29). -/
def doViewDefine (a : ViewDefineArgs) (t : Ticket) (s : State) : State :=
  let v := s.view a.view
  if a.view < 1 ∨ a.view ≥ Config.views then s.refuse t .badHandle
  else if v.useCount ≠ 0 then s.reply t .badState [item1 0, item1 v.useCount]
  else if a.clear then (changeView s a.view false Shape.zero).reply t .ok [itemFlag v.defined, item1 0]
  else
    match shapeFault a.shape with
    | some p => s.refuseRange t p
    | none => (changeView s a.view true a.shape).reply t .ok [itemFlag v.defined, item1 0]

/-- VIEW_DEFINE (R28, R29). -/
def execViewDefine (tag : Nat) (a : ViewDefineArgs) (s : State) : Host.Outcome State Fault Refusal :=
  .next (takeAs tag (.viewDefine a) (doViewDefine a) s)

end Sys2Proof.Machine
end

