-- ==== Sys2Proof/Machine/StoreCommands.lean ====
section
/-! DEFINITION. The pin and store requests (6.4, 6.6). -/

namespace Sys2Proof.Machine

/-! ## PIN_SET -/

/-- The page need a PIN_SET adds: that of the entries no pin covers yet (R119). -/
def addedPages (s : State) (a : PinSetArgs) : Nat := sumOf (fun w => w.2.2) (newWants s a.clip a.view a.first a.count)

/-- Check 6 of R119: both totals, with what is added, within their limits. -/
def pinFits (s : State) (a : PinSetArgs) : Bool :=
  pinLimits (pinnedPages s + addedPages s a)
    (pinnedEntries s + (newWants s a.clip a.view a.first a.count).length)

/-- A PIN_SET that passes its checks, on pin `p` (R119). -/
def setPinRange (s : State) (a : PinSetArgs) (p : Nat) : State :=
  let s1 := (claimView s a.view).setPin p ⟨.full, a.clip, a.view, a.first, a.count, a.count, []⟩
  coverFrames s1 p ((List.range a.count).map (fun i => a.first + i))

/-- PIN_SET at the Frame Store (R119). -/
def doPinSet (a : PinSetArgs) (t : Ticket) (s : State) : State :=
  if badClip s a.clip then s.refuse t .badHandle
  else if (s.clip a.clip).state ≠ .live then s.refuse t .badState
  else if a.count < 1 ∨ a.count > 4096 then s.refuseRange t 4
  else if a.first + a.count > Config.maxLength then s.refuseRange t 0
  else
    match freePin s with
    | none => s.refuse t .noSpace
    | some p =>
      if !viewDefined s a.view then s.refuse t .badHandle
      else if !pinFits s a then s.refuse t .noSpace
      else
        let s1 := setPinRange s a p
        s1.reply t .ok [item1 p, item2 (s1.pin p).covered.length, item4 (addedPages s a), item4 (pinnedPages s1)]

/-- PIN_SET (R119). -/
def execPinSet (tag : Nat) (a : PinSetArgs) (s : State) : Host.Outcome State Fault Refusal :=
  .next (takeAs tag (.pinSet a) (doPinSet a) s)

/-! ## PIN_DROP -/

/-- A pin number that is out of range or FREE (R121, R123). -/
def badPin (s : State) (p : Nat) : Bool := decide (p ≥ Config.pins) || (s.pin p).state == .free

/-- A pin is removed: its entries released, its view released (R121). -/
def dropPin (s : State) (p : Nat) : State :=
  releaseView ((uncover s p (fun _ => true)).setPin p Pin.initial) (s.pin p).view

/-- PIN_DROP at the Frame Store (R121). -/
def doPinDrop (p : Nat) (t : Ticket) (s : State) : State :=
  if badPin s p then s.refuse t .badHandle
  else (dropPin s p).reply t .ok [item1 (s.pin p).state.code, item2 (s.pin p).covered.length]

/-- PIN_DROP (R121). -/
def execPinDrop (tag pin : Nat) (s : State) : Host.Outcome State Fault Refusal :=
  .next (takeAs tag (.pinDrop pin) (doPinDrop pin) s)

/-! ## STORE_ASK -/

/-- The number of entries in use that satisfy a test (R123). -/
def countEntries (s : State) (f : Entry → Bool) : Nat := (entriesWhere s f).length

/-- A FAILED entry. -/
def EntryState.isFailed : EntryState → Bool
  | .failed _ => true
  | _ => false

/-- Page 0 of STORE_ASK (R123, R188). -/
def storePage0 (s : State) : List Item :=
  [item4 s.store.freePages, item4 (reclaimPages s), item4 (countEntries s (fun _ => true)),
    item4 (countEntries s Entry.waiting), item4 (countEntries s (fun e => e.state == .filling && e.granted)),
    item4 (countEntries s (fun e => e.state == .ready))]

/-- Page 1 of STORE_ASK (R123, R188). -/
def storePage1 (s : State) : List Item :=
  [item4 (countEntries s (fun e => e.state.isFailed)), item4 (countEntries s (fun e => e.state == .abandoned)),
    item4 (countEntries s (fun e => e.orphan)), item4 (pinnedPages s), item2 (pinnedEntries s),
    itemFlag s.store.overload]

/-- How many of a pin's covered entries are READY (R123). -/
def coveredReady (s : State) (q : Pin) : Nat :=
  (q.covered.filter (fun x => ((s.entry x.2).map (fun e => e.state == .ready)).getD false)).length

/-- Page 2 of STORE_ASK: the named pin (R123, R188). -/
def storePage2 (s : State) (q : Pin) : List Item :=
  [item1 q.state.code, item1 q.view, item2 q.clip, item2 q.count, item2 q.held, item4 q.first, item2 (coveredReady s q)]

/-- A page of STORE_ASK; a page above 2 is taken as 2, and with pin none it carries 0 throughout (R188). -/
def storeItems (s : State) (number page : Nat) : List Item :=
  match page with
  | 0 => storePage0 s
  | 1 => storePage1 s
  | _ => storePage2 s (if number = 255 then Pin.initial else s.pin number)

/-- STORE_ASK at the Frame Store (R123, R188). -/
def doStoreAsk (a : PageAskArgs) (t : Ticket) (s : State) : State :=
  if a.number ≠ 255 ∧ badPin s a.number then s.refuse t .badHandle
  else s.reply t .ok (storeItems s a.number a.page)

/-- STORE_ASK (R123, R188). -/
def execStoreAsk (tag : Nat) (a : PageAskArgs) (s : State) : Host.Outcome State Fault Refusal :=
  .next (takeAs tag (.storeAsk a) (doStoreAsk a) s)

end Sys2Proof.Machine
end

