-- ==== Sys2Proof/Machine/PortCommands.lean ====
section
/-! DEFINITION. The Request Port's own requests and events (chapter 10): register writes, the end of a read, the taking of
whatever is in hand, NOTICE_MODE, NOTICE_TAKE, SERVICE_CLEAR, power-on reset. -/

namespace Sys2Proof.Machine

/-! ## Register writes -/

/-- REQ_TAIL_WRITE (R173). -/
def execReqTailWrite (value : Nat) (s : State) : Host.Outcome State Fault Refusal :=
  .next (endEvent s (writeTail s value))

/-- RING_ENABLE_ON (R171). -/
def execRingEnableOn (s : State) : Host.Outcome State Fault Refusal := .next (endEvent s (enableRings s))

/-- RING_ENABLE_OFF (R171). -/
def execRingEnableOff (s : State) : Host.Outcome State Fault Refusal := .next (endEvent s (disableRings s))

/-! ## NOTICE_MODE and NOTICE_TAKE -/

/-- The scope PART (R185). -/
def scopePart : Nat := 64
/-- The scope ALL_CHANNELS (R185). -/
def scopeAll : Nat := 65

/-- The channels a scope names. -/
def scopeChannels (scope : Nat) : List Nat := if scope = scopeAll then List.range Config.channels else [scope]

/-- The part takes enables and modes; a LEVEL flag whose condition is true is set (R181). -/
def setPartNotices (s : State) (enables : Nat) (m1 m2 : Mode) : State :=
  { s with port := { s.port with
    enables := BitVec.ofNat 4 enables, overloadMode := m1, refLostMode := m2
    flags := s.port.flags ||| (levelBits m1 s.store.overload PartFlag.overload |||
      levelBits m2 s.time.refLost PartFlag.refLost) } }

/-- The flags a channel's LEVEL modes set now (R179, R181, R182). -/
def levelFlags (n : NoticeSet) (ch : Channel) : BitVec 7 :=
  levelBits n.missingMode ch.missing ChanFlag.missing ||| levelBits n.edgeMode ch.edge ChanFlag.edge

/-- A channel's number takes enables and modes; a LEVEL flag whose condition is true is set (R181). -/
def setChanNotices (enables : Nat) (m1 m2 : Mode) (s : State) (c : Nat) : State :=
  let n : NoticeSet := ⟨BitVec.ofNat 7 enables, m1, m2⟩
  let s1 := { s with port := { s.port with chanNotices := tset NoticeSet.initial s.port.chanNotices c n } }
  s1.setChanFlag c (levelFlags n (s.chan c))

/-- The items that report enables and modes (R181, R187). -/
def modeItems (enables : Nat) (m1 m2 : Mode) : List Item := [item1 enables, item1 m1.code, item1 m2.code]

/-- The enables and modes of the part before a NOTICE_MODE (R181). -/
def partModeItems (p : Port) : List Item := modeItems p.enables.toNat p.overloadMode p.refLostMode

/-- The enables and modes of a channel before a NOTICE_MODE (R181). -/
def chanModeItems (p : Port) (c : Nat) : List Item :=
  modeItems (p.notices c).enables.toNat (p.notices c).missingMode (p.notices c).edgeMode

/-- A NOTICE_MODE whose checks pass (R181). -/
def setNotices (s : State) (a : NoticeModeArgs) (m1 m2 : Mode) (t : Ticket) : State :=
  if a.scope = scopePart then (setPartNotices s a.enables m1 m2).reply t .ok (partModeItems s.port)
  else ((scopeChannels a.scope).foldl (setChanNotices a.enables m1 m2) s).reply t .ok
    (chanModeItems s.port (if a.scope = scopeAll then 0 else a.scope))

/-- A RANGE for two illegal modes. R181 checks both at once and R187 names one argument: which of them is a free value (DESIGN
CHOICE, log 9). -/
def refuseModes (s : State) (t : Ticket) : State :=
  (s.refuseRange t (if Config.modeDetailNamesSecond s.freeDraws then 4 else 3)).draw

/-- NOTICE_MODE at the Request Port (R181); a RANGE names the illegal mode (R187). -/
def doNoticeMode (a : NoticeModeArgs) (t : Ticket) (s : State) : State :=
  if a.scope > scopeAll then s.refuse t .badHandle
  else
    match modeOfCode a.first, modeOfCode a.second with
    | none, none => refuseModes s t
    | none, some _ => s.refuseRange t 3
    | some _, none => s.refuseRange t 4
    | some m1, some m2 => setNotices s a m1 m2 t

/-- NOTICE_MODE (R181). -/
def execNoticeMode (tag : Nat) (a : NoticeModeArgs) (s : State) : Host.Outcome State Fault Refusal :=
  .next (takeAs tag (.noticeMode a) (doNoticeMode a) s)

/-- The flags the part's LEVEL modes hold set now (R179, R182). -/
def partLevelFlags (s : State) : BitVec 4 :=
  levelBits s.port.overloadMode s.store.overload PartFlag.overload |||
    levelBits s.port.refLostMode s.time.refLost PartFlag.refLost

/-- The flags of the part after a take: the masked ones cleared, but for LEVEL ones whose condition holds, which are set again
(R182). -/
def takePartFlags (s : State) (mask : Nat) : State :=
  { s with port := { s.port with
    flags := s.port.flags &&& (~~~(BitVec.ofNat 4 mask) ||| partLevelFlags s) } }

/-- The flags of a channel after a take (R182). -/
def takeChanFlags (s : State) (c mask : Nat) : State :=
  s.modChan c (fun ch => { ch with
    flags := ch.flags &&& (~~~(BitVec.ofNat 7 mask) ||| levelFlags (s.port.notices c) ch) })

/-- The items of a NOTICE_TAKE: the flags as read, the two conditions (R182, R187). -/
def takeItems (flags : Nat) (first second : Bool) : List Item := [item1 flags, itemFlag first, itemFlag second]

/-- NOTICE_TAKE (R182). -/
def doNoticeTake (a : NoticeTakeArgs) (t : Ticket) (s : State) : State :=
  if a.scope > scopePart then s.refuse t .badHandle
  else if a.scope = scopePart then
    (takePartFlags s a.mask).reply t .ok (takeItems s.port.flags.toNat s.store.overload s.time.refLost)
  else
    let ch := s.chan a.scope
    (takeChanFlags s a.scope a.mask).reply t .ok (takeItems ch.flags.toNat ch.missing ch.edge)

/-- NOTICE_TAKE (R182). -/
def execNoticeTake (tag : Nat) (a : NoticeTakeArgs) (s : State) : Host.Outcome State Fault Refusal :=
  .next (takeAs tag (.noticeTake a) (doNoticeTake a) s)

/-! ## SERVICE_CLEAR (R183) -/

/-- A channel's waiting answers are ABORTED, the close answer among them (R71). -/
def abortChannel (s : State) (c : Nat) : State :=
  (endWaiting s c .aborted).refuseOpt (s.chan c).closeTicket .aborted

/-- SERVICE_CLEAR at the Channel Controller: answers ABORTED, every record at its reset values (R71, R92). -/
def clearChannels (s : State) : State :=
  { (List.range Config.channels).foldl abortChannel s with chans := [] }

/-- A ring at SERVICE_CLEAR: closing under a transfer in flight, dropped otherwise (R104). -/
def clearRing (r : Ring) : Ring :=
  if r.transfer.isSome then { r with closing := true, revoke := none } else Ring.initial

/-- SERVICE_CLEAR at the Delivery Engine (R104). -/
def clearRings (s : State) : State :=
  { s with rings := (tmap (fun _ r => clearRing r) s.rings).filter (fun c => c.2 ≠ Ring.initial) }

/-- SERVICE_CLEAR at the Placement Unit: use counts to 0 (R26). -/
def clearViews (s : State) : State :=
  { s with views :=
    (tmap (fun _ (v : View) => ({ v with useCount := 0 } : View)) s.views).filter (fun c => c.2 ≠ View.initial) }

/-- SERVICE_CLEAR at the Timebase Unit: start waits removed (R169). -/
def clearWaits (s : State) : State := { s with time := { s.time with waits := [] } }

/-- SERVICE_CLEAR at every block. The channels come first, so that their answers find their records; the store after the
map, so that withdrawn serials and lapsing pins meet a store about to be emptied (R25, R124). -/
def clearBlocks (s : State) : State :=
  let s1 := clearRings (clearChannels s)
  let s2 := clearSched (clearStore (clearViews (clearMap s1)))
  clearWaits ((List.range Config.members).foldl clearLink s2)

/-- Channels open: not FREE (R183). -/
def openChannels (s : State) : Nat := (s.chans.filter (fun c => c.2.state != .free)).length

/-- Transfers in flight (R183). -/
def transfersInFlight (s : State) : Nat := (s.rings.filter (fun r => r.2.transfer.isSome)).length

/-- Answers ABORTED in this event (R183). -/
def abortedAnswers (s : State) : Nat := (s.handed.filter (fun h => h.result == .aborted)).length

/-- SERVICE_CLEAR: every block is cleared; the answer waits for the transfers in flight (R183). -/
def doServiceClear (t : Ticket) (s : State) : State :=
  let s1 := clearBlocks s
  answerClear { s1 with port := { s1.port with
    clearWait := some ⟨t, openChannels s, transfersInFlight s, abortedAnswers s1⟩ } }

/-- SERVICE_CLEAR (R183). -/
def execServiceClear (tag : Nat) (s : State) : Host.Outcome State Fault Refusal :=
  .next (takeAs tag .serviceClear doServiceClear s)

/-! ## Power-on reset (R184) -/

/-- The notice line as power-on reset leaves it: released (R180, R191). -/
def releasedLine (s : State) : List Output := if s.port.lineActive then [.noticeLine false] else []

/-- POWER_ON_RESET: every block at its reset values; waiting requests are dropped without an answer (R184). The bytes of store
memory are neither read nor cleared (R105). The queue of commands outside the part and the trace of its outputs stand. -/
def execPowerOnReset (s : State) : Host.Outcome State Fault Refusal :=
  .next { State.reset with
    store := { State.reset.store with memory := s.store.memory }
    pending := s.pending, out := s.out ++ releasedLine s, freeDraws := s.freeDraws }

/-! ## Taking whatever is in hand (R174, R175) -/

/-- What the owner of a request does with it (R175). -/
def ownerAct : Request → Ticket → State → State
  | .noticeMode a => doNoticeMode a
  | .noticeTake a => doNoticeTake a
  | .serviceClear => doServiceClear
  | .clipMake a => doClipMake a
  | .clipAmend a => doClipAmend a
  | .groupFix a => doGroupFix a
  | .groupList a => doGroupList a
  | .groupDrop a => doGroupDrop a
  | .clipRetire a => doClipRetire a
  | .clipAsk c => doClipAsk c
  | .frameAsk a => doFrameAsk a
  | .viewDefine a => doViewDefine a
  | .chanOpen a => doChanOpen a
  | .chanBind a => doChanBind a
  | .chanOptions a => doChanOptions a
  | .chanDepth a => doChanDepth a
  | .chanCue a => doChanCue a
  | .chanStart a => doChanStart a
  | .chanHold c => doChanHold c
  | .chanSpeed a => doChanSpeed a
  | .chanJump a => doChanJump a
  | .chanClose c => doChanClose c
  | .chanAsk a => doChanAsk a
  | .slotReturn a => doSlotReturn a
  | .pinSet a => doPinSet a
  | .pinDrop p => doPinDrop p
  | .storeAsk a => doStoreAsk a
  | .volumeDefine a => doVolumeDefine a
  | .volumeDissolve v => doVolumeDissolve v
  | .memberHold m => doMemberHold m
  | .memberRelease m => doMemberRelease m
  | .memberReturn m => doMemberReturn m
  | .memberAsk m => doMemberAsk m
  | .calibrate p => doCalibrate p
  | .timeAsk => doTimeAsk

/-- The kind by which a request in hand is judged: a request of unknown kind, or one whose read failed, is the port's own. -/
def kindInHand : InHand → Nat
  | .request _ r => r.kind
  | _ => 0

/-- The request in hand, whatever it is, is taken in an event that began in `s0` and has come to `s` (R174, R175). -/
def takeThis (s0 s : State) : InHand → State
  | .request tag r => takeRequest s0 tag r (ownerAct r) s
  | .unknown tag kind => takeBadKind s0 tag kind false s
  | .failed => takeBadKind s0 0 0 true s

/-- The request in hand when R174's conditions hold for it in a state. -/
def takeable (s : State) : Option InHand :=
  match s.port.hand with
  | .held q => if canTake s (kindInHand q) then some q else none
  | _ => none

/-- The end of an event that may let a request be taken: an ANS_HEAD write, the end of a GROUP_LIST fetch, the end of a read. A
request in hand whose conditions now hold is taken in this event (R174). -/
def endTaking (s0 s : State) : State :=
  match takeable s with
  | some q => takeThis s0 s q
  | none => endEvent s0 s

/-- REQUEST_TAKE: the request in hand is taken when R174's conditions hold (R174, R175; log 1). -/
def execRequestTake (s : State) : Host.Outcome State Fault Refusal :=
  .next (match takeable s with
    | some q => takeThis s s q
    | none => s)

/-- PORT_WORD_WRITE: a host write at an offset of the register window (R170, R190; log 29). -/
def execPortWordWrite (offset width value : Nat) (s : State) : Host.Outcome State Fault Refusal :=
  .next (if offset = 28 ∧ width = 4 then endTaking s (writeWindow s offset width value)
    else endEvent s (writeWindow s offset width value))

/-- ANS_HEAD_WRITE: a request in hand for which a reservation is now free is taken in the same event (R173, R174). -/
def execAnsHeadWrite (value : Nat) (s : State) : Host.Outcome State Fault Refusal :=
  .next (endTaking s (writeHead s value))

/-- REQUEST_READ_DONE: the request is in hand, and taken in the same event when R174's conditions hold; after a stop it is
discarded (R171, R174). -/
def execRequestReadDone (entry : Option (List Byte)) (s : State) : Host.Outcome State Fault Refusal :=
  .next (match s.port.hand with
    | .reading => endTaking s (s.setHand (.held (decodeEntry entry)))
    | .condemned => endEvent s (s.setHand .idle)
    | _ => endEvent s s)

/-- GROUP_LIST_FETCH_END: once the GROUP_LIST is answered and its consequences are carried out, a map request in hand can be
accepted and is taken in the same event (R7, R14, R174). -/
def execGroupListFetchEnd (list : Option (List Byte)) (s : State) : Host.Outcome State Fault Refusal :=
  .next (match s.map.fetch with
    | some f => endTaking s (settle (endFetch s f list))
    | none => s)

/-- What a BAD_KIND row takes: a request whose read failed, or one of unknown kind (R174, R175). -/
def badInHand (tag kind : Nat) (failed : Bool) : InHand := if failed then .failed else .unknown tag kind

/-- BAD_KIND: the taking of a request of a kind not in the table, or of one whose read failed, which is answered with kind
and tag 0 (R174, R175, R177). A kind of the table is not one (log 2). -/
def execBadKind (tag kind : Nat) (readFailed : Bool) (s : State) : Host.Outcome State Fault Refusal :=
  .next (if s.port.hand.brings (badInHand tag kind readFailed) && (readFailed || (requestWidths kind).isNone) then
      if canTake s 0 then takeBadKind s (if readFailed then 0 else tag) (if readFailed then 0 else kind) readFailed s
      else s.setHand (.held (badInHand tag kind readFailed))
    else s)

end Sys2Proof.Machine
end

