-- ==== Sys2Proof/Machine/Dispatch.lean ====
section
/-! DEFINITION. `exec`: the effect of each command, one arm per row of spec/opcode_table.json. -/

namespace Sys2Proof.Machine

def exec (i : Instr) (s : State) : Host.Outcome State Fault Refusal :=
  match i with
  | .powerOnReset => Sys2Proof.Machine.execPowerOnReset s
  | .portWordWrite offset width value => Sys2Proof.Machine.execPortWordWrite offset width value s
  | .reqTailWrite value => Sys2Proof.Machine.execReqTailWrite value s
  | .ansHeadWrite value => Sys2Proof.Machine.execAnsHeadWrite value s
  | .ringEnableOn => Sys2Proof.Machine.execRingEnableOn s
  | .ringEnableOff => Sys2Proof.Machine.execRingEnableOff s
  | .requestReadDone entry => Sys2Proof.Machine.execRequestReadDone entry s
  | .requestTake => Sys2Proof.Machine.execRequestTake s
  | .badKind tag kind readFailed => Sys2Proof.Machine.execBadKind tag kind readFailed s
  | .noticeMode tag a => Sys2Proof.Machine.execNoticeMode tag a s
  | .noticeTake tag a => Sys2Proof.Machine.execNoticeTake tag a s
  | .serviceClear tag => Sys2Proof.Machine.execServiceClear tag s
  | .clipMake tag a => Sys2Proof.Machine.execClipMake tag a s
  | .clipAmend tag a => Sys2Proof.Machine.execClipAmend tag a s
  | .groupFix tag a => Sys2Proof.Machine.execGroupFix tag a s
  | .groupList tag a => Sys2Proof.Machine.execGroupList tag a s
  | .groupListFetchEnd list => Sys2Proof.Machine.execGroupListFetchEnd list s
  | .groupDrop tag a => Sys2Proof.Machine.execGroupDrop tag a s
  | .clipRetire tag a => Sys2Proof.Machine.execClipRetire tag a s
  | .clipAsk tag clip => Sys2Proof.Machine.execClipAsk tag clip s
  | .frameAsk tag a => Sys2Proof.Machine.execFrameAsk tag a s
  | .viewDefine tag a => Sys2Proof.Machine.execViewDefine tag a s
  | .chanOpen tag a => Sys2Proof.Machine.execChanOpen tag a s
  | .chanBind tag a => Sys2Proof.Machine.execChanBind tag a s
  | .chanOptions tag a => Sys2Proof.Machine.execChanOptions tag a s
  | .chanDepth tag a => Sys2Proof.Machine.execChanDepth tag a s
  | .chanCue tag a => Sys2Proof.Machine.execChanCue tag a s
  | .chanStart tag a => Sys2Proof.Machine.execChanStart tag a s
  | .chanHold tag channel => Sys2Proof.Machine.execChanHold tag channel s
  | .chanSpeed tag a => Sys2Proof.Machine.execChanSpeed tag a s
  | .chanJump tag a => Sys2Proof.Machine.execChanJump tag a s
  | .chanClose tag channel => Sys2Proof.Machine.execChanClose tag channel s
  | .chanAsk tag a => Sys2Proof.Machine.execChanAsk tag a s
  | .cueExpiry channel => Sys2Proof.Machine.execCueExpiry channel s
  | .startTimeReached channel => Sys2Proof.Machine.execStartTimeReached channel s
  | .startWaitLimit channel => Sys2Proof.Machine.execStartWaitLimit channel s
  | .dueTime channel => Sys2Proof.Machine.execDueTime channel s
  | .slotReturn tag a => Sys2Proof.Machine.execSlotReturn tag a s
  | .transferEnd channel => Sys2Proof.Machine.execTransferEnd channel s
  | .pinSet tag a => Sys2Proof.Machine.execPinSet tag a s
  | .pinDrop tag pin => Sys2Proof.Machine.execPinDrop tag pin s
  | .storeAsk tag a => Sys2Proof.Machine.execStoreAsk tag a s
  | .doneReceived link m => Sys2Proof.Machine.execDoneReceived link m s
  | .tagExpiry link readTag => Sys2Proof.Machine.execTagExpiry link readTag s
  | .linkDown link => Sys2Proof.Machine.execLinkDown link s
  | .linkUp link => Sys2Proof.Machine.execLinkUp link s
  | .resetDone link => Sys2Proof.Machine.execResetDone link s
  | .returnExpiry link => Sys2Proof.Machine.execReturnExpiry link s
  | .volumeDefine tag a => Sys2Proof.Machine.execVolumeDefine tag a s
  | .volumeDissolve tag volume => Sys2Proof.Machine.execVolumeDissolve tag volume s
  | .memberHold tag member => Sys2Proof.Machine.execMemberHold tag member s
  | .memberRelease tag member => Sys2Proof.Machine.execMemberRelease tag member s
  | .memberReturn tag member => Sys2Proof.Machine.execMemberReturn tag member s
  | .memberAsk tag member => Sys2Proof.Machine.execMemberAsk tag member s
  | .refPulse highCycles => Sys2Proof.Machine.execRefPulse highCycles s
  | .calibrate tag period => Sys2Proof.Machine.execCalibrate tag period s
  | .calLimit => Sys2Proof.Machine.execCalLimit s
  | .refLostTimeout => Sys2Proof.Machine.execRefLostTimeout s
  | .timeAsk tag => Sys2Proof.Machine.execTimeAsk tag s
  | .localCycle => Sys2Proof.Machine.execLocalCycle s

end Sys2Proof.Machine
end

