-- ==== Sys2Proof/Machine/Layout.lean ====
section
/-! DEFINITION. The bytes of what the part writes into host memory (R187, R189, R190). -/

namespace Sys2Proof.Machine

/-- The 32 bytes of an answer (R187). -/
def Answer.bytes (a : Answer) : List Byte :=
  padTo 32 (leBytes 2 a.kind ++ leBytes 2 a.tag ++
    [BitVec.ofNat 8 a.result.code, a.status, BitVec.ofNat 8 (flagItem a.readFailure), a.detail] ++
    packFrom 8 (a.items.map (fun i => (i.width, i.value))))

/-- The kind code of a delivery record (R189). -/
def RecordKind.code : RecordKind → Nat
  | .frame => 1
  | .again => 2
  | .miss => 3
  | .revoke => 4

/-- The reason code of a delivery record (R189). -/
def MissReason.code : MissReason → Nat
  | .none => 0
  | .notReady => 1
  | .absent => 2
  | .oversize => 3
  | .failed .media => 4
  | .failed .noMember => 5
  | .failed .viewOutside => 6

/-- The 32 bytes of a delivery record (R189): the due time's low 32 bits at byte 20. -/
def Record.bytes (r : Record) : List Byte :=
  padTo 32 ([BitVec.ofNat 8 r.kind.code, BitVec.ofNat 8 r.reason.code,
      BitVec.ofNat 8 (flagItem r.last + 2 * flagItem r.edge + 4 * flagItem r.shortView), 0] ++
    leBytes 2 r.clip ++ leBytes 2 r.gap ++ leBytes 4 r.period.toNat ++ leBytes 4 r.frame ++ leBytes 4 r.byteCount ++
    leBytes 4 r.due)

/-- The bytes an output writes into host memory, from its address on; none for an output that is no such write. -/
def Output.hostBytes : Output → Option (Word64 × List Byte)
  | .readHost .. => none
  | .answer ad a => some (ad, a.bytes)
  | .portRecord ad h a => some (ad, leBytes 4 h.toNat ++ leBytes 4 a.toNat)
  | .record ad r => some (ad, r.bytes)
  | .produceWord ad c => some (ad, leBytes 4 c.toNat)
  | .frameData ad d => some (ad, d)
  | .sendRead .. => none
  | .sendReset _ => none
  | .noticeLine _ => none

end Sys2Proof.Machine
end

