-- ==== Sys2Proof/Safety.lean ====
section
/-! DEFINITION. The terms claims are stated in: a request offered and answered, what the consequences of an event leave as it
was, and the laws of the part that every step keeps. -/

namespace Sys2Proof.Machine

/-! ## Requests -/

/-- The request may be taken: it is in hand, or its read is in flight and brings it, and R174's conditions hold. -/
abbrev Offered (s : State) (tag : Nat) (r : Request) : Prop :=
  s.port.hand.brings (.request tag r) = true ∧ canTake s r.kind = true

/-- The outputs of `t` that `s` does not yet have. -/
def outputsSince (s t : State) : List Output := t.out.drop s.out.length

/-- Between `s` and `t` an answer of this kind, tag, result, detail and items is written, no read failure in it (R177). -/
def Answered (s t : State) (kind tag : Nat) (r : Result) (detail : BitVec 8) (items : List Item) : Prop :=
  ∃ address status, Output.answer address ⟨kind, tag, r, status, false, detail, items⟩ ∈ outputsSince s t

/-- The row of the table that takes a request (R175). -/
def rowOf (tag : Nat) : Request → Instr
  | .noticeMode a => .noticeMode tag a
  | .noticeTake a => .noticeTake tag a
  | .serviceClear => .serviceClear tag
  | .clipMake a => .clipMake tag a
  | .clipAmend a => .clipAmend tag a
  | .groupFix a => .groupFix tag a
  | .groupList a => .groupList tag a
  | .groupDrop a => .groupDrop tag a
  | .clipRetire a => .clipRetire tag a
  | .clipAsk c => .clipAsk tag c
  | .frameAsk a => .frameAsk tag a
  | .viewDefine a => .viewDefine tag a
  | .chanOpen a => .chanOpen tag a
  | .chanBind a => .chanBind tag a
  | .chanOptions a => .chanOptions tag a
  | .chanDepth a => .chanDepth tag a
  | .chanCue a => .chanCue tag a
  | .chanStart a => .chanStart tag a
  | .chanHold c => .chanHold tag c
  | .chanSpeed a => .chanSpeed tag a
  | .chanJump a => .chanJump tag a
  | .chanClose c => .chanClose tag c
  | .chanAsk a => .chanAsk tag a
  | .slotReturn a => .slotReturn tag a
  | .pinSet a => .pinSet tag a
  | .pinDrop p => .pinDrop tag p
  | .storeAsk a => .storeAsk tag a
  | .volumeDefine a => .volumeDefine tag a
  | .volumeDissolve v => .volumeDissolve tag v
  | .memberHold m => .memberHold tag m
  | .memberRelease m => .memberRelease tag m
  | .memberReturn m => .memberReturn tag m
  | .memberAsk m => .memberAsk tag m
  | .calibrate p => .calibrate tag p
  | .timeAsk => .timeAsk tag

/-- The channel an open channel's request names: all channel requests but CHAN_OPEN (R46, R69, R102). -/
def openChannelOf : Request → Option Nat
  | .chanBind a => some a.channel
  | .chanOptions a => some a.channel
  | .chanDepth a => some a.channel
  | .chanCue a => some a.channel
  | .chanStart a => some a.channel
  | .chanHold c => some c
  | .chanSpeed a => some a.channel
  | .chanJump a => some a.channel
  | .chanClose c => some c
  | .chanAsk a => some a.number
  | .slotReturn a => some a.channel
  | _ => none

/-- A legal ring size: a power of two from 64 to 4096 (R170). -/
def LegalRing (n : Word32) : Prop := ∃ k, 6 ≤ k ∧ k ≤ 12 ∧ n.toNat = 2 ^ k

/-! ## What consequences leave alone -/

/-- A channel record without what the consequences of an event may change: list, a cue's completion, flags, last record
period. -/
def Channel.kept (ch : Channel) : Channel :=
  { ch with state := .free, list := [], cue := none, cueExpiry := none, flags := 0, lastRecord := none, listStands := false }

/-- A delivery ring without what its own records and transfers change. -/
def Ring.kept (r : Ring) : Ring :=
  { r with produce := 0, taken := 0, nextSlot := 0, transfer := none, revoke := none, gap := 0 }

/-- A link record without its tags. -/
def Link.kept (l : Link) : Link := { l with tags := [] }

/-- The state of a tag of a member's link (R141). -/
def State.tag (s : State) (m k : Nat) : TagState := tget TagState.free (s.link m).tags k

/-- The flags `b` are the flags `a` with none cleared and at most flags of the mask added. -/
def FlagsAdded {n : Nat} (mask a b : BitVec n) : Prop := ∃ f, b = a ||| (f &&& mask)

/-- The channel flags a cue's completion may set (R54). -/
def cueFlags : BitVec 7 := ChanFlag.cued ||| ChanFlag.short

/-- The channel flags an event may set besides its own effect: a cue's completion, and the two conditions (R70, R178). -/
def lateFlags : BitVec 7 := cueFlags ||| ChanFlag.missing ||| ChanFlag.edge

/-- The part flags an event may set besides its own effect: the two conditions (R178). -/
def latePartFlags : BitVec 4 := PartFlag.overload ||| PartFlag.refLost

/-- A tag stands, or was FREE and is BUSY with a read issued at the present house time (R143). -/
def TagFollows (s t : State) (m k : Nat) : Prop :=
  t.tag m k = s.tag m k ∨ (s.tag m k = .free ∧ ∃ cls, t.tag m k = .busy (s.now + Config.readTicks) cls)

/-- `t` is reached from `s` by consequences alone (`settle`): the port, the map, views, volumes, pins and time stand; a
channel's course stands and its state moves at most from CUEING to CUED; only FREE tags are taken; outputs and answers are
only added. -/
structure Follows (s t : State) : Prop where
  port : t.port = s.port
  map : t.map = s.map
  views : t.views = s.views
  volumes : t.volumes = s.volumes
  time : t.time = s.time
  freeDraws : t.freeDraws = s.freeDraws
  pending : t.pending = s.pending
  pins : t.store.pins = s.store.pins
  chans : ∀ c, (t.chan c).kept = (s.chan c).kept
  state : ∀ c, (t.chan c).state = (s.chan c).state ∨ ((s.chan c).state = .cueing ∧ (t.chan c).state = .cued)
  flags : ∀ c, FlagsAdded cueFlags (s.chan c).flags (t.chan c).flags
  rings : ∀ c, (t.ring c).kept = (s.ring c).kept
  links : ∀ m, (t.link m).kept = (s.link m).kept
  tags : ∀ m k, TagFollows s t m k
  out : s.out <+: t.out
  handed : s.handed <+: t.handed

/-! ## Frames -/

/-- A channel's course stands, its state moves at most from CUEING to CUED, and no flag of it is cleared. -/
def ChanStands (s t : State) (c : Nat) : Prop :=
  (t.chan c).kept = (s.chan c).kept ∧
    ((t.chan c).state = (s.chan c).state ∨ ((s.chan c).state = .cueing ∧ (t.chan c).state = .cued)) ∧
    FlagsAdded (lateFlags ||| ChanFlag.revised) (s.chan c).flags (t.chan c).flags

/-- A link's record stands; only its FREE tags may be taken. -/
def LinkStands (s t : State) (m : Nat) : Prop :=
  (t.link m).kept = (s.link m).kept ∧ ∀ k, TagFollows s t m k

/-- The port words, the enables and the modes stand. -/
structure SettingsStand (s t : State) : Prop where
  reqBase : t.port.reqBase = s.port.reqBase
  reqSize : t.port.reqSize = s.port.reqSize
  reqTail : t.port.reqTail = s.port.reqTail
  ansBase : t.port.ansBase = s.port.ansBase
  ansSize : t.port.ansSize = s.port.ansSize
  ansHead : t.port.ansHead = s.port.ansHead
  enables : t.port.enables = s.port.enables
  overloadMode : t.port.overloadMode = s.port.overloadMode
  refLostMode : t.port.refLostMode = s.port.refLostMode
  chanNotices : t.port.chanNotices = s.port.chanNotices

/-- What a command writes besides what follows within its event. -/
structure Touched where
  map : Bool := false
  views : Bool := false
  volumes : Bool := false
  pins : Bool := false
  time : Bool := false
  settings : Bool := false
  partFlags : Bool := false
  draws : Bool := false
  chans : Nat → Prop := fun _ => False
  rings : Nat → Prop := fun _ => False
  links : Nat → Prop := fun _ => False

/-- What the making or the end of a channel's binding touches: the bind, the view's claim, a clip it frees with its volume's
count and its pins, the start waits, and the channels and rings given. -/
def Touched.binding (chans rings : Nat → Prop) : Touched :=
  { map := true, volumes := true, pins := true, views := true, time := true, chans := chans, rings := rings }

/-- The frame of a command: all that it does not touch stands, up to what follows within its event; the queue of commands
stands and outputs are only added. Store memory is framed by itself (`Obligations.OnlyReadsWriteStoreMemory`). -/
structure Frame (w : Touched) (s t : State) : Prop where
  map : w.map = false → t.map = s.map
  views : w.views = false → t.views = s.views
  volumes : w.volumes = false → t.volumes = s.volumes
  pins : w.pins = false → t.store.pins = s.store.pins
  time : w.time = false → t.time = s.time
  settings : w.settings = false → SettingsStand s t
  partFlags : w.partFlags = false →
    FlagsAdded (latePartFlags ||| PartFlag.member) s.port.flags t.port.flags
  draws : w.draws = false → t.freeDraws = s.freeDraws
  chans : ∀ c, ¬w.chans c → ChanStands s t c
  rings : ∀ c, ¬w.rings c → (t.ring c).kept = (s.ring c).kept
  links : ∀ m, ¬w.links m → LinkStands s t m
  pending : t.pending = s.pending
  out : s.out <+: t.out

/-- Nothing is left to follow within the event. -/
abbrev AtRest (s : State) : Prop := refreshUrgency s = s ∧ settleStep s = none

/-- Overload stands as the available pages call for (R122). -/
def OverloadHeld (s : State) : Prop :=
  (s.store.overload = true → availablePages s < 32768) ∧ (s.store.overload = false → 16384 ≤ availablePages s)

/-- An answer written with result ABORTED. -/
def Output.isAborted : Output → Bool
  | .answer _ a => a.result == .aborted
  | _ => false

/-- The answers written ABORTED between two states (R183). -/
def abortedWritten (s t : State) : Nat := ((outputsSince s t).filter Output.isAborted).length

/-! ## Laws of the part -/

/-- The twelfth law (R165): the ratio is the power-on 1 to 1 or within ±250 ppm, and positive; a measurement in progress has a
legal period. -/
def RatioHeld (s : State) : Prop :=
  (0 < s.time.ticks ∧ 0 < s.time.cycles ∧ withinTolerance s.time.ticks s.time.cycles = true) ∧
    (s.time.measure.state ≠ .idle → 27000 ≤ s.time.measure.period ∧ s.time.measure.period ≤ 27000000)

/-- The tenth law (R59): every speed, stored or pending, lies in −512 to +512. -/
def SpeedsHeld (s : State) : Prop :=
  ∀ c, (-512 ≤ (s.chan c).speed ∧ (s.chan c).speed ≤ 512) ∧
    ∀ q, (s.chan c).course = some q → -512 ≤ q.speed ∧ q.speed ≤ 512

/-- The fifth law's bound (R78): no read-ahead list holds more than 32 entries. -/
def ListsHeld (s : State) : Prop := ∀ c, (s.chan c).list.length ≤ Config.maxList

/-- The first half of the sixth law (R94): host-held, taken and free slots sum to the slot count, at most 64. -/
def SlotsHeld (s : State) : Prop :=
  ∀ c, (s.ring c).hostHeld + (s.ring c).taken + (s.ring c).free = (s.ring c).slotCount ∧ (s.ring c).slotCount ≤ 64

/-- Store memory is in its canonical form (R105). -/
def MemoryHeld (s : State) : Prop := s.store.memory.wf = true

/-- The failure count of every link is 0 to 3 (R141, R146). -/
def FailuresHeld (s : State) : Prop := ∀ m, (s.link m).failures ≤ 3

/-- The seventh law's pin half (R131): no link has more than 2 BUSY tags of issue class PIN. -/
def PinReadsHeld (s : State) : Prop := ∀ m, (s.link m).countTags TagState.isBusyPin ≤ 2

/-- Every table is in its canonical form: numbers strictly rising, no record at its reset values listed. -/
def TablesHeld (s : State) : Prop :=
  twf Clip.initial s.map.clips = true ∧ twf View.initial s.views = true ∧ twf Channel.initial s.chans = true ∧
    twf Ring.initial s.rings = true ∧ twf none s.store.entries = true ∧ twf Pin.initial s.store.pins = true ∧
    twf none s.sched.contexts = true ∧ twf Link.initial s.links = true ∧ twf Volume.initial s.volumes = true ∧
    twf none s.time.waits = true ∧ twf NoticeSet.initial s.port.chanNotices = true

/-- The notice line is active while any flag whose enable is set is set (R180), and no answer waits between events to be
written (R176). -/
def LineHeld (s : State) : Prop := s.port.lineActive = lineWanted s.port s.chans ∧ s.handed = []

/-- The state between events: nothing is left to follow, no answer waits to be written, every table is in its canonical form. -/
abbrev Quiet (s : State) : Prop := AtRest s ∧ s.handed = [] ∧ TablesHeld s

/-- A request has been taken and answered and nothing else has changed: every block but the Request Port stands exactly; H and A
have risen by 1; V, the port state, the flags and all settings stand, and the notice line shows them. -/
structure OnlyAnswered (s t : State) : Prop where
  map : t.map = s.map
  views : t.views = s.views
  chans : t.chans = s.chans
  rings : t.rings = s.rings
  store : t.store = s.store
  sched : t.sched = s.sched
  links : t.links = s.links
  volumes : t.volumes = s.volumes
  time : t.time = s.time
  settings : SettingsStand s t
  state : t.port.state = s.port.state
  head : t.port.head = s.port.head + 1
  produced : t.port.produced = s.port.produced + 1
  reserved : t.port.reserved = s.port.reserved
  flags : t.port.flags = s.port.flags
  line : t.port.lineActive = lineWanted s.port s.chans

/-- The pages held by all entries. -/
def pagesHeld (s : State) : Nat := sumOf (fun c => pagesOf c.2) s.store.entries

/-- The third law (R105): free pages and the pages held by entries make 262,144; an entry that holds pages is READY or GRANTED
and FILLING (R106). -/
def PagesHeld (s : State) : Prop :=
  s.store.freePages + pagesHeld s = Config.storePages ∧
    ∀ id e, s.entry id = some e → e.pages ≠ [] → e.state = .ready ∨ (e.state = .filling ∧ e.granted = true)

/-- The read-ahead entries over all channels that refer to a store entry (R107). -/
def listRefs (s : State) (id : Nat) : Nat :=
  sumOf (fun c => (c.2.list.filter (fun e => e.ref == some id)).length) s.chans

/-- The covered frames over all pins that hold a store entry; a pin holds one entry under one frame (R107). -/
def pinHolds (s : State) (id : Nat) : Nat :=
  sumOf (fun p => ((s.pin p).covered.filter (fun x => x.2 == id)).length) (List.range Config.pins)

/-- The fourth law (R107): a store entry's reference count is the number of list entries that refer to it, its pin count the
number of pins that cover it, and nothing refers to an entry record that is free. A FREE channel's list is empty (R78), a FREE
pin covers nothing (R118), and an abandoned context's entry is ABANDONED with no user (R115, R136). -/
def UsersHeld (s : State) : Prop :=
  (∀ id e, s.entry id = some e → e.refs = listRefs s id ∧ e.pins = pinHolds s id) ∧
    (∀ id, s.entry id = none → listRefs s id = 0 ∧ pinHolds s id = 0) ∧
    (∀ c, (s.chan c).state = .free → (s.chan c).list = []) ∧ (∀ p, (s.pin p).state = .free → (s.pin p).covered = []) ∧
    ∀ id c, s.context id = some c → c.abandoned = true →
      ∃ e, s.entry id = some e ∧ e.state = .abandoned ∧ e.refs = 0 ∧ e.pins = 0

/-- The transfers in flight that hold a store entry (R98, R107). -/
def holdsOn (s : State) (id : Nat) : Nat :=
  sumOf (fun r => one (r.2.transfer.any (fun x => x.entry == id))) s.rings

/-- The end of a transfer has released its hold on the READY entry `e` of record `id` (R99 step 2). While another user is left the
entry stands, whole, with as many holds fewer as transfers in flight hold it fewer (R107). Without one it takes the next release
stamp (R113), or is freed where SERVICE_CLEAR has left it (R124); what stands in its record after it is freed, then or by a reclaim
within the event, is an entry created since. The counters that number stamps and arrivals are the model's own (log 19). -/
structure HoldReleased (s t : State) (id : Nat) (e : Entry) : Prop where
  used : 0 < e.refs ∨ 0 < e.pins ∨ 1 < e.transfers → ∃ refs holds deadlines,
    t.entry id = some { e with refs := refs, transfers := holds, deadlines := deadlines } ∧ e.refs ≤ refs ∧
      holds + holdsOn s id = e.transfers + holdsOn t id
  unused : e.refs = 0 → e.pins = 0 → e.transfers = 1 → ∀ x, t.entry id = some x →
    s.store.arrivals ≤ x.arrival ∨ (e.cleared = false ∧ x.stamp = s.store.stamps)

/-- The reads that serve a piece of a context (R126). -/
def readsFor (s : State) (id i : Nat) : Nat :=
  (s.sched.reads.filter (fun r => r.context == id && r.piece == i && !r.detached)).length

/-- The reads a piece's status calls for: one for DIRECT, its outstanding ones for SET (R126). -/
def PieceStatus.reads : PieceStatus → Nat
  | .direct => 1
  | .set n _ => n
  | _ => 0

/-- The 4096 unit-read records (R125): those holding a read, the FREE ones and those HELD by contexts make 4096. A read that
serves no context is detached, a detached read is ISSUED (R135), each piece has the reads its status calls for, a CONVERTING
one has gathered fewer records than its set needs, a read of no set serves a DIRECT one (R126, R128), an abandoned context has
only ISSUED reads (R136), and a context belongs to an entry that is GRANTED and FILLING, or ABANDONED with it (R126, R136). -/
def RecordsHeld (s : State) : Prop :=
  s.sched.reads.length + s.sched.freeRecords + heldRecords s = Config.readRecords ∧
    (∀ r ∈ s.sched.reads, (s.context r.context = none → r.detached = true) ∧ (r.detached = true → r.issue.isSome = true)) ∧
    (∀ id c, s.context id = some c → c.abandoned = false → ∀ i q, c.pieces[i]? = some q →
      readsFor s id i = q.status.reads ∧ (∀ g o, q.status = .converting g o → g < q.piece.others.length) ∧
        ∀ r ∈ s.sched.reads, r.context = id → r.piece = i → r.detached = false → r.ofSet = false → q.status = .direct) ∧
    (∀ id c, s.context id = some c → c.abandoned = true → c.pieces = [] ∧ c.reserve = 0 ∧
      ∀ r ∈ s.sched.reads, r.context = id → r.issue.isSome = true) ∧
    ∀ id c, s.context id = some c → ∃ e, s.entry id = some e ∧
      ((c.abandoned = false ∧ e.state = .filling ∧ e.granted = true) ∨ (c.abandoned = true ∧ e.state = .abandoned))

/-- The ninth law (R47): I is at most L, and the position of a CUEING, CUED, RUNNING or HELD channel lies in 16I to 16L + 15.
A start pends on no FREE or IDLE channel (R55, R56). The EDGE condition holds on just the RUNNING channels whose due index is at the
live edge (R70), where it stands at 16L, the channel following (R66, R77); the model's own field `atEdge` says which are (log 39). -/
def PositionsHeld (s : State) : Prop :=
  ∀ c, (s.chan c).inPoint ≤ (s.chan c).lastFrame ∧
    ((s.chan c).state ≠ .free → (s.chan c).state ≠ .idle →
      16 * ((s.chan c).inPoint : Int) ≤ (s.chan c).pos ∧ (s.chan c).pos ≤ 16 * ((s.chan c).lastFrame : Int) + 15) ∧
    ((s.chan c).start.isSome = true → (s.chan c).state ≠ .free ∧ (s.chan c).state ≠ .idle) ∧
    (s.chan c).edge = ((s.chan c).state == .running && (s.chan c).atEdge) ∧
    ((s.chan c).atEdge = true → (s.chan c).follow = true ∧ (s.chan c).pos = 16 * ((s.chan c).lastFrame : Int))

/-- The number of channels bound to a clip. -/
def bindsOf (s : State) (h : Nat) : Nat := ((List.range Config.channels).filter (fun c => (s.chan c).clip == h)).length

/-- The first law (R19): the bind count of a clip is the number of channels bound to it; a FREE clip has none, and a FREE
channel, or one beyond the 64, is bound to none. -/
def BindsHeld (s : State) : Prop :=
  (∀ h, h ≠ 0 → (s.clip h).bindCount = bindsOf s h) ∧ (∀ h, (s.clip h).state = .free → (s.clip h).bindCount = 0) ∧
    ∀ c, (s.chan c).state = .free ∨ Config.channels ≤ c → (s.chan c).clip = 0

/-- The second law (R5, R18): no two group slots carry one serial, and each lies below the serial counter; every entry that can
be found is the frame its key names, as the map holds it, with that frame's page need (R106). A FREE clip has no slot, and the
clip of a GROUP_LIST in flight is LIVE (R7, R20). -/
def SerialsHeld (s : State) : Prop :=
  (∀ h g k j, (s.clip h).slot g ≠ .empty → ((s.clip k).slot j).serial = ((s.clip h).slot g).serial → k = h ∧ j = g) ∧
    (∀ h g, (s.clip h).slot g ≠ .empty →
      1 ≤ ((s.clip h).slot g).serial ∧ ∀ n, s.map.serial = some n → ((s.clip h).slot g).serial < n) ∧
    (∀ n, s.map.serial = some n → 1 ≤ n) ∧ (∀ h g, (s.clip h).state = .free → (s.clip h).slot g = .empty) ∧
    (∀ f, s.map.fetch = some f → (s.clip f.clip).state = .live) ∧
    ∀ id e, s.entry id = some e → e.findable = true → e.pageNeed = framePages s e.key.view e.loc.size ∧
      ∃ h g, ((s.clip h).slot g).frame e.key.index = .present e.key.serial e.key.index e.loc.address e.loc.size

/-- A member that is DRAINING or HELD (R150). -/
def MemberState.leaving (m : MemberState) : Bool := m == .draining || m == .held

/-- The eleventh law (R150): at most one member of a volume is DRAINING or HELD. A member's volume is DEFINED and lists it. -/
def DrainsHeld (s : State) : Prop :=
  (∀ m k v, (s.link m).volume = some v → (s.link k).volume = some v → (s.link m).member.leaving = true →
    (s.link k).member.leaving = true → m = k) ∧
    ∀ m v, (s.link m).volume = some v → (s.volume v).defined = true ∧ m ∈ (s.volume v).members

/-- The answers a channel owes (R53, R56, R60, R68). -/
def Channel.owed (ch : Channel) : Nat :=
  one ch.cue.isSome + one ch.start.isSome + one ch.course.isSome + one ch.closeTicket.isSome

/-- The answers owed: the requests taken that wait in some block (R176). -/
def owed (s : State) : Nat :=
  sumOf (fun c => c.2.owed) s.chans + sumOf (fun l => one l.2.hold.isSome + one l.2.ret.isSome) s.links +
    one s.time.measure.ticket.isSome + one s.map.fetch.isSome + one s.port.clearWait.isSome

/-- The Request Port (R171, R174, R176, R183): V counts at least the answers owed, and is 0 while DISABLED; otherwise the answers
not yet consumed and V fit the answer ring, of at most 4096 entries. A request is in hand, or its read in flight, only while
ENABLED with no SERVICE_CLEAR answer owed, and no request that can be taken stands in hand (log 1). -/
def PortHeld (s : State) : Prop :=
  owed s ≤ s.port.reserved ∧ s.handed = [] ∧ (s.port.state = .disabled → s.port.reserved = 0) ∧
    (s.port.state ≠ .disabled → (s.port.produced - s.port.ansHead).toNat + s.port.reserved ≤ s.port.ansSize.toNat ∧
      s.port.ansSize.toNat ≤ 4096) ∧
    (s.port.hand ≠ .idle → s.port.hand ≠ .condemned → s.port.state = .enabled ∧ s.port.clearWait = none) ∧
    takeable s = none

/-- A state in which the laws above hold: the first to fourth, the ninth to twelfth, the bound of the fifth, the first half of
the sixth, the PIN half of the seventh, and the forms of the tables, the notice line, the port, the failure counts and the read
records. -/
def Sound (s : State) : Prop :=
  RatioHeld s ∧ SpeedsHeld s ∧ ListsHeld s ∧ SlotsHeld s ∧ MemoryHeld s ∧ FailuresHeld s ∧ PinReadsHeld s ∧
    TablesHeld s ∧ LineHeld s ∧ BindsHeld s ∧ PagesHeld s ∧ UsersHeld s ∧ RecordsHeld s ∧ PositionsHeld s ∧
    SerialsHeld s ∧ DrainsHeld s ∧ PortHeld s

/-! ## Records revoked, play ended -/

/-- A REVOKE of period `r` for channel `c` waits in `t`, or was written since `s` in the ring's next slot with its gap (R101). -/
def RevokeHanded (s t : State) (c : Nat) (r : Word32) : Prop :=
  (t.ring c).revoke = some ⟨r, (s.chan c).clip, (s.chan c).dueLow r⟩ ∨
    Output.record (BitVec.ofNat 64 ((s.ring c).recordArea + 32 * (s.ring c).nextSlot))
      ⟨.revoke, .none, false, false, false, (s.chan c).clip, (s.ring c).gap, r, 0, 0, (s.chan c).dueLow r⟩ ∈ outputsSince s t

/-- A REVOKE naming period `r` has been decided for a reason no request gave the channel: REVISED is set, and where none was
waiting it is this one that waits or is written (R63, R64, R65). -/
def Revised (s t : State) (c : Nat) (r : Word32) : Prop :=
  (t.chan c).flags &&& ChanFlag.revised ≠ 0 ∧ ((s.ring c).revoke = none → RevokeHanded s t c r)

/-- A record stands for the `m`th period after the due index: the last record period is that one or later (R82). -/
def Channel.recordAhead (ch : Channel) (m : Nat) : Bool :=
  match ch.lastRecord with
  | some n => atOrAfter n ch.dueIndex && decide (m ≤ periodsAfter n ch.dueIndex)
  | none => false

/-- The position `m` periods after a cursor under a course, none past the end of play (R74). -/
def Course.posAfter (k : Course) : Nat → Cursor → Option Int
  | 0, c => some c.pos
  | m + 1, c => (k.next c).bind (Course.posAfter k m)

/-- A RUNNING channel has left RUNNING without a request: HELD at 16`l` from its due index, with END set, no due time and not at the
edge; its pending course is stored and its CHAN_SPEED answered OK (R60), with the change period it asked for (log 36); records
from the due index on are revoked, the last one then being the model's `priorRecord` (R63, log 15). -/
structure PlayEnded (s t : State) (c l : Nat) : Prop where
  state : (t.chan c).state = .held
  pos : (t.chan c).pos = 16 * (l : Int)
  dueIndex : (t.chan c).dueIndex = (s.chan c).dueIndex
  dueTime : (t.chan c).dueTime = none
  base : (t.chan c).base = some s.time.house
  edge : (t.chan c).edge = false
  atEdge : (t.chan c).atEdge = false
  course : (t.chan c).course = none
  playEnd : (t.chan c).flags &&& ChanFlag.playEnd ≠ 0
  speed : (t.chan c).speed = ((s.chan c).course.map PendingCourse.speed).getD (s.chan c).speed
  answered : ∀ q, (s.chan c).course = some q →
    Answered s t q.ticket.kind q.ticket.tag .ok 0 [item2s q.speed, item4 q.change.toNat]
  revoked : (s.chan c).recordFrom (s.chan c).dueIndex = true →
    Revised s t c (s.chan c).dueIndex ∧ (t.chan c).lastRecord = (s.chan c).priorRecord
  unrevised : (s.chan c).recordFrom (s.chan c).dueIndex = false →
    (t.chan c).flags &&& ChanFlag.revised = (s.chan c).flags &&& ChanFlag.revised

/-! ## What a group write hands on -/

/-- What a write of group `g` of clip `h` hands on, from the state before it to the state after its event (R16): entries of the
old serial are findable no more; each pin that holds frames of the group is refilled and, over the limits, truncated from the
top; each RUNNING channel of the clip with records standing for frames of the group has a REVOKE of the first such period
decided and REVISED set, and no other channel has. -/
structure GroupHanded (s t : State) (h g : Nat) : Prop where
  orphaned : TablesHeld s → SerialsHeld s → ∀ id e, t.entry id = some e → e.findable = true →
    (s.clip h).slot g ≠ .empty → e.key.serial ≠ ((s.clip h).slot g).serial
  otherPins : ∀ p, p ≥ Config.pins ∨ pinReached h g (s.pin p) = false → t.pin p = s.pin p
  range : ∀ p, (t.pin p).clip = (s.pin p).clip ∧ (t.pin p).view = (s.pin p).view ∧ (t.pin p).first = (s.pin p).first ∧
    (t.pin p).count = (s.pin p).count ∧ (t.pin p).held ≤ (s.pin p).held ∧
    (t.pin p).state = if (t.pin p).held < (s.pin p).held then .part else (s.pin p).state
  refilled : ∀ p < Config.pins, pinReached h g (s.pin p) = true → ∀ f ∈ pinFramesIn (t.pin p) g,
    ((∃ id, (f, id) ∈ (t.pin p).covered) ↔ ∃ n x a z, lookup t h f = .present n x a z)
  kept : ∀ p f id, f / 64 ≠ g → f < (t.pin p).first + (t.pin p).held →
    ((f, id) ∈ (t.pin p).covered ↔ (f, id) ∈ (s.pin p).covered)
  limits : TablesHeld s → pinLimits (pinnedPages t) (pinnedEntries t) = true ∨
    ∀ p < Config.pins, pinReached h g (s.pin p) = true → (t.pin p).held = 0
  revised : ∀ c < Config.channels, ∀ r, (s.chan c).clip = h → (s.chan c).state = .running →
    firstRecordIn (s.chan c) g = some r → Revised s t c r
  unrevised : ∀ c, c ≥ Config.channels ∨ (s.chan c).clip ≠ h ∨ (s.chan c).state ≠ .running ∨
      firstRecordIn (s.chan c) g = none →
    (t.chan c).flags &&& ChanFlag.revised = (s.chan c).flags &&& ChanFlag.revised

end Sys2Proof.Machine
end

