-- ==== Sys2Proof/WellFormed.lean ====
section
/-! DEFINITION. Which commands can be written down in the formats of R185, R186 and R190: every number fits its item's
width, every message and record has its length. A well-formed request may still be refused by its owner. -/

namespace Sys2Proof

/-- The value fits an unsigned item of so many bytes (R185). -/
def fitsItem (width v : Nat) : Bool := v < 256 ^ width

/-- The value fits a signed item of so many bytes (R185). -/
def fitsSigned (width : Nat) (v : Int) : Bool :=
  decide (-(128 * 256 ^ (width - 1) : Int) ≤ v ∧ v < 128 * 256 ^ (width - 1))

/-- The member list of a VOLUME_DEFINE: its first W items when W is at most 16, else not read (R186 note 2). -/
def membersWf (a : VolumeDefineArgs) : Bool :=
  (a.members.length == if a.width ≤ 16 then a.width else 0) && a.members.all (fitsItem 1)

/-- The apply period of a CHAN_SPEED, where given, fits its item. -/
def applyWf : Option Nat → Bool
  | none => true
  | some n => fitsItem 4 n

/-- The arguments of a request fit their items (R186). -/
def Request.wf : Request → Bool
  | .noticeMode a => fitsItem 2 a.scope && fitsItem 1 a.enables && fitsItem 1 a.first && fitsItem 1 a.second
  | .noticeTake a => fitsItem 2 a.scope && fitsItem 1 a.mask
  | .serviceClear => true
  | .clipMake a => fitsItem 8 a.cookie && fitsItem 1 a.volume && fitsItem 1 a.rate
  | .clipAmend a => fitsItem 2 a.clip && fitsItem 4 a.length && fitsItem 8 a.cookie
  | .groupFix a =>
    fitsItem 2 a.clip && fitsItem 1 a.present && fitsItem 2 a.group && fitsItem 4 a.size && fitsItem 8 a.base
  | .groupList a => fitsItem 2 a.clip && fitsItem 2 a.group && fitsItem 1 a.count && fitsItem 8 a.address
  | .groupDrop a => fitsItem 2 a.clip && fitsItem 2 a.group
  | .clipRetire a => fitsItem 2 a.clip
  | .clipAsk c => fitsItem 2 c
  | .frameAsk a => fitsItem 2 a.clip && fitsItem 1 a.view && fitsItem 4 a.frame
  | .viewDefine a =>
    fitsItem 1 a.view && fitsItem 1 a.shape.lineStep && fitsItem 2 a.shape.lead && fitsItem 2 a.shape.firstLine &&
      fitsItem 2 a.shape.lineCount && fitsItem 4 a.shape.lineBytes && fitsItem 4 a.shape.colOffset &&
      fitsItem 4 a.shape.colBytes
  | .chanOpen a =>
    fitsItem 1 a.channel && fitsItem 1 a.primeDepth && fitsItem 1 a.sustainDepth && fitsItem 1 a.slotCount &&
      fitsItem 2 a.primePeriods && fitsItem 4 a.slotBytes && fitsItem 4 a.leadMargin && fitsItem 8 a.ringBase &&
      fitsItem 8 a.recordArea
  | .chanBind a =>
    fitsItem 1 a.channel && fitsItem 1 a.view && fitsItem 1 a.rateOverride && fitsItem 2 a.clip &&
      fitsItem 4 a.inPoint && fitsItem 4 a.lastFrame
  | .chanOptions a =>
    fitsItem 1 a.channel && fitsItem 4 a.inPoint && fitsItem 4 a.lastFrame && fitsItem 4 a.leadMargin
  | .chanDepth a =>
    fitsItem 1 a.channel && fitsItem 1 a.primeDepth && fitsItem 1 a.sustainDepth && fitsItem 2 a.primePeriods
  | .chanCue a => fitsItem 1 a.channel && fitsSigned 4 a.position
  | .chanStart a => fitsItem 1 a.channel && fitsItem 1 a.form && fitsItem 8 a.time
  | .chanHold c => fitsItem 1 c
  | .chanSpeed a => fitsItem 1 a.channel && fitsSigned 2 a.speed && applyWf a.apply
  | .chanJump a => fitsItem 1 a.channel && fitsSigned 4 a.position
  | .chanClose c => fitsItem 1 c
  | .chanAsk a => fitsItem 1 a.number && fitsItem 1 a.page
  | .slotReturn a => fitsItem 1 a.channel && fitsItem 1 a.count
  | .pinSet a => fitsItem 1 a.view && fitsItem 2 a.clip && fitsItem 4 a.first && fitsItem 2 a.count
  | .pinDrop p => fitsItem 1 p
  | .storeAsk a => fitsItem 1 a.number && fitsItem 1 a.page
  | .volumeDefine a =>
    fitsItem 1 a.volume && fitsItem 1 a.width && fitsItem 2 a.unit && membersWf a && fitsItem 8 a.base &&
      fitsItem 8 a.memberLength
  | .volumeDissolve v => fitsItem 1 v
  | .memberHold m => fitsItem 1 m
  | .memberRelease m => fitsItem 1 m
  | .memberReturn m => fitsItem 1 m
  | .memberAsk m => fitsItem 1 m
  | .calibrate p => fitsItem 4 p
  | .timeAsk => true

/-- A request row: its tag is 16 bits (R186) and its arguments fit. -/
def requestRowWf (tag : Nat) (r : Request) : Bool := fitsItem 2 tag && r.wf

/-- Channel, link and tag numbers of an event are those the part has (00 Handles and numbers). -/
def Instr.wf : Instr → Bool
  | .powerOnReset => true
  | .portWordWrite o w v => decide (o < 4096) && fitsItem w v
  | .reqTailWrite v => fitsItem 4 v
  | .ansHeadWrite v => fitsItem 4 v
  | .ringEnableOn => true
  | .ringEnableOff => true
  | .requestReadDone none => true
  | .requestReadDone (some b) => b.length == 64
  | .requestTake => true
  | .badKind t k f => fitsItem 2 t && fitsItem 2 k && (!f || (t == 0 && k == 0))
  | .noticeMode t a => requestRowWf t (.noticeMode a)
  | .noticeTake t a => requestRowWf t (.noticeTake a)
  | .serviceClear t => requestRowWf t .serviceClear
  | .clipMake t a => requestRowWf t (.clipMake a)
  | .clipAmend t a => requestRowWf t (.clipAmend a)
  | .groupFix t a => requestRowWf t (.groupFix a)
  | .groupList t a => requestRowWf t (.groupList a)
  | .groupListFetchEnd none => true
  | .groupListFetchEnd (some b) => b.length % 16 == 0 && decide (b.length ≤ 1024)
  | .groupDrop t a => requestRowWf t (.groupDrop a)
  | .clipRetire t a => requestRowWf t (.clipRetire a)
  | .clipAsk t c => requestRowWf t (.clipAsk c)
  | .frameAsk t a => requestRowWf t (.frameAsk a)
  | .viewDefine t a => requestRowWf t (.viewDefine a)
  | .chanOpen t a => requestRowWf t (.chanOpen a)
  | .chanBind t a => requestRowWf t (.chanBind a)
  | .chanOptions t a => requestRowWf t (.chanOptions a)
  | .chanDepth t a => requestRowWf t (.chanDepth a)
  | .chanCue t a => requestRowWf t (.chanCue a)
  | .chanStart t a => requestRowWf t (.chanStart a)
  | .chanHold t c => requestRowWf t (.chanHold c)
  | .chanSpeed t a => requestRowWf t (.chanSpeed a)
  | .chanJump t a => requestRowWf t (.chanJump a)
  | .chanClose t c => requestRowWf t (.chanClose c)
  | .chanAsk t a => requestRowWf t (.chanAsk a)
  | .cueExpiry c => decide (c < Config.channels)
  | .startTimeReached c => decide (c < Config.channels)
  | .startWaitLimit c => decide (c < Config.channels)
  | .dueTime c => decide (c < Config.channels)
  | .slotReturn t a => requestRowWf t (.slotReturn a)
  | .transferEnd c => decide (c < Config.channels)
  | .pinSet t a => requestRowWf t (.pinSet a)
  | .pinDrop t p => requestRowWf t (.pinDrop p)
  | .storeAsk t a => requestRowWf t (.storeAsk a)
  | .doneReceived l m => decide (l < Config.members) && decide (m.tag < Config.tags)
  | .tagExpiry l t => decide (l < Config.members) && decide (t < Config.tags)
  | .linkDown l => decide (l < Config.members)
  | .linkUp l => decide (l < Config.members)
  | .resetDone l => decide (l < Config.members)
  | .returnExpiry l => decide (l < Config.members)
  | .volumeDefine t a => requestRowWf t (.volumeDefine a)
  | .volumeDissolve t v => requestRowWf t (.volumeDissolve v)
  | .memberHold t m => requestRowWf t (.memberHold m)
  | .memberRelease t m => requestRowWf t (.memberRelease m)
  | .memberReturn t m => requestRowWf t (.memberReturn m)
  | .memberAsk t m => requestRowWf t (.memberAsk m)
  | .refPulse _ => true
  | .calibrate t p => requestRowWf t (.calibrate p)
  | .calLimit => true
  | .refLostTimeout => true
  | .timeAsk t => requestRowWf t .timeAsk
  | .localCycle => true

end Sys2Proof
end

