-- ==== Sys2Proof/Certificates/Slice0/Obligations.lean ====
section
/-! DEFINITION. The statements for the provers. Each request's statement is about its being taken (`Offered`), the answer
written in the event (`Answered`), what it changes, and its frame. -/

open Sys2Proof Sys2Proof.Machine

/-! ## Steps, reset, laws -/

/-- A step runs the command at the front of the queue on the state with the queue's rest. -/
def Obligations.StepRunsFrontCommand : Prop :=
  ∀ (c : Instr) (rest : List Instr) (s : State), s.pending = c :: rest → step s = exec c { s with pending := rest }

/-- After power-on reset these laws of the part hold: the first (R19), the second (R18), the third (R105), the fourth (R107),
the ninth (R47), the tenth (R59), the eleventh (R150), the twelfth (R165), the bound of the fifth (R78), the first half of the
sixth (R94), the PIN half of the seventh (R131); with them the Request Port's counts and hand (R171, R174, R176), the failure
counts (R146), the read records (R125), the notice line (R180), no answer waiting (R176), and the canonical form of memory and
tables (the model's own, log 7). -/
def Obligations.ResetIsSound : Prop := Sound State.reset

/-- POWER_ON_RESET leaves every block at its reset values (R184, R170, R2 to R5, R26, R44, R92, R93, R105, R118, R139, R141,
R156, R161). Reset values the spec does not give are the model's own fields (log 19). -/
def Obligations.PowerOnResetClearsThePart : Prop :=
  ∀ s : State, ∃ t, exec .powerOnReset s = .next t ∧
    (t.port.state = .disabled ∧ t.port.reqBase = 0 ∧ t.port.reqSize = 0 ∧ t.port.reqTail = 0 ∧ t.port.ansBase = 0 ∧
      t.port.ansSize = 0 ∧ t.port.ansHead = 0 ∧ t.port.head = 0 ∧ t.port.produced = 0 ∧ t.port.reserved = 0 ∧
      t.port.hand = .idle ∧ t.port.clearWait = none) ∧
    (t.port.flags = PartFlag.resetSeen ∧ t.port.enables = 0 ∧ t.port.overloadMode = .enter ∧ t.port.refLostMode = .enter ∧
      t.port.lineActive = false ∧ ∀ c, t.port.notices c = ⟨0, .enter, .enter⟩) ∧
    ((∀ h, t.clip h = Clip.initial) ∧ t.map.freePages = 8192 ∧ t.map.freeTables = 65536 ∧ t.map.serial = some 1 ∧
      t.map.fetch = none) ∧
    (t.view 0 = ⟨true, Shape.zero, 0⟩ ∧ ∀ v, v ≠ 0 → t.view v = ⟨false, Shape.zero, 0⟩) ∧
    (∀ c, t.chan c = Channel.initial ∧ t.ring c = Ring.initial) ∧
    (t.store.freePages = 262144 ∧ (∀ e, t.entry e = none) ∧ (∀ p, t.pin p = Pin.initial) ∧ t.store.overload = false) ∧
    (t.sched.reads = [] ∧ (∀ e, t.context e = none) ∧ t.sched.freeRecords = 4096 ∧ t.sched.admissions = 0) ∧
    (∀ m, t.link m = Link.initial) ∧ (∀ v, t.volume v = Volume.initial) ∧
    (t.time.house = 0 ∧ t.time.ticks = 1 ∧ t.time.cycles = 1 ∧ t.time.accumulator = 0 ∧ t.time.calibrated = false ∧
      t.time.measure.state = .idle ∧ t.time.monitor = false ∧ t.time.lastPulse = none ∧ t.time.refLost = false)

/-- Every step keeps the ratio within its tolerance (twelfth law, R165) and every speed in −512 to +512 (tenth law, R59). -/
def Obligations.StepsKeepRatioAndSpeeds : Prop :=
  ∀ s t : State, RatioHeld s → SpeedsHeld s → step s = .next t → RatioHeld t ∧ SpeedsHeld t

/-- Every step keeps every read-ahead list to 32 entries (R78) and every ring's slot counts in balance (R94). -/
def Obligations.StepsKeepListsAndSlots : Prop :=
  ∀ s t : State, ListsHeld s → SlotsHeld s → step s = .next t → ListsHeld t ∧ SlotsHeld t

/-- Every step keeps store memory and every table of records in canonical form (the model's own form, log 7), and keeps the
third law: free pages and the pages held by entries make 262,144 (R105). -/
def Obligations.StepsKeepCanonicalForm : Prop :=
  (∀ s t : State, MemoryHeld s → TablesHeld s → step s = .next t → MemoryHeld t ∧ TablesHeld t) ∧
  ∀ s t : State, TablesHeld s → PagesHeld s → step s = .next t → PagesHeld t

/-- Every step keeps every failure count at 3 or below (R146), every link's BUSY tags of issue class PIN at 2 or below (R131), the
eleventh law, that at most one member of a volume is DRAINING or HELD (R150), and the 4096 read records: those holding a read,
the FREE and the HELD make 4096 (R125). -/
def Obligations.StepsKeepLinkBounds : Prop :=
  (∀ s t : State, FailuresHeld s → PinReadsHeld s → step s = .next t → FailuresHeld t ∧ PinReadsHeld t) ∧
  (∀ s t : State, DrainsHeld s → step s = .next t → DrainsHeld t) ∧
  ∀ s t : State, TablesHeld s → RecordsHeld s → step s = .next t → RecordsHeld t

/-- After every step the notice line shows whether an enabled flag is set (R180), and every answer handed over in the event
has been written (R176). An event that enters or leaves overload sets OVERLOAD as its mode says (R122, R178, R179); overload
stands as the available pages call for once a count of an entry has fallen or risen by a reference or a pin, and once nothing is
left to follow (R113, R122), and while it stands no head of the wait list but one of class PLAYOUT is granted or failed (R111,
R122). -/
def Obligations.StepsKeepTheNoticeLine : Prop :=
  (∀ s t : State, LineHeld s → step s = .next t → LineHeld t) ∧
  (∀ (i : Instr) (s t : State), exec i s = .next t → i ≠ .powerOnReset →
    (s.store.overload = false → t.store.overload = true → t.port.overloadMode ≠ .leave →
      t.port.flags &&& PartFlag.overload ≠ 0) ∧
    (s.store.overload = true → t.store.overload = false → t.port.overloadMode = .leave ∨ t.port.overloadMode = .both →
      t.port.flags &&& PartFlag.overload ≠ 0)) ∧
  (∀ s : State, AtRest s → OverloadHeld s) ∧
  (∀ (s : State) (id : Nat), OverloadHeld (releaseRef s id) ∧ OverloadHeld (releasePin s id) ∧
    OverloadHeld (releaseHold s id) ∧ OverloadHeld (addRef s id) ∧ OverloadHeld (addPin s id)) ∧
  ∀ s t : State, s.store.overload = true → grantHead s = some t → ∃ id e, waitHead s = some (id, e) ∧ 0 < e.refs

/-- Every step keeps the first law: a clip's bind count is the number of channels bound to it (R19); the second: no two group
slots carry one serial, and every entry that can be found is the frame its key names in the map (R5, R18); and the fourth: a
store entry's reference and pin counts are the numbers of list entries and pins that use it (R107). -/
def Obligations.StepsKeepBindCounts : Prop :=
  (∀ s t : State, BindsHeld s → step s = .next t → BindsHeld t) ∧
  (∀ s t : State, TablesHeld s → SerialsHeld s → step s = .next t → SerialsHeld t) ∧
  ∀ s t : State, TablesHeld s → UsersHeld s → step s = .next t → UsersHeld t

/-- The eighth law (R131): a READ is sent only to a member that is ONLINE; its tag is BUSY with its expiry 10,800,000 ticks
later (R143). It holds of every step from a state in which no request that can be taken stands in hand, and every step keeps
that, with the Request Port's counts (R171, R174, R176; log 1). -/
def Obligations.ReadsGoOnlyToOnlineMembers : Prop :=
  (∀ s t : State, takeable s = none → step s = .next t → ∀ m k sector count,
    Output.sendRead m k sector count ∈ outputsSince s t →
      (t.link m).member = .online ∧ ∃ cls, t.tag m k = .busy (t.now + 10800000) cls) ∧
  ∀ s t : State, TablesHeld s → PortHeld s → step s = .next t → PortHeld t

/-- Only the end of a read (DONE_RECEIVED) changes a byte of store memory. R132 writes delivered bytes and R105 leaves the bytes
uncleared at power-on reset; that a byte otherwise stands, in a page that is free or newly taken too, is the model's choice
(log 7). -/
def Obligations.OnlyReadsWriteStoreMemory : Prop :=
  ∀ (i : Instr) (s t : State), exec i s = .next t → (∀ l m, i ≠ .doneReceived l m) →
    ∀ a, readByte t.store.memory a = readByte s.store.memory a

/-! ## Requests on their way in -/

/-- A request written in the format of R186 is read back as it was, with its tag. -/
def Obligations.RequestsSurviveTheirBytes : Prop :=
  ∀ (tag : Nat) (r : Request), requestRowWf tag r = true →
    (encodeRequest tag r).length = 64 ∧ decodeEntry (some (encodeRequest tag r)) = .request tag r

/-- A base or size is stored as written while DISABLED and left alone otherwise; a write at no word's own offset and width stores
nothing. Every other word, H, the modes and, from a quiet state, the port state, A and V stand. A write of REQ_TAIL, ANS_HEAD or
RING_ENABLE in its own width is that row's; one of another width, or of another value to RING_ENABLE, changes nothing (R170,
R190). -/
def Obligations.SetupWordsStoredWhileDisabled : Prop :=
  (∀ (s : State) (offset width value : Nat), value < 256 ^ width → offset ≠ 12 → offset ≠ 28 → offset ≠ 32 →
    ∃ t, exec (.portWordWrite offset width value) s = .next t ∧ Frame { settings := true } s t ∧
      t.port.reqTail = s.port.reqTail ∧ t.port.ansHead = s.port.ansHead ∧ t.port.enables = s.port.enables ∧
      t.port.overloadMode = s.port.overloadMode ∧ t.port.refLostMode = s.port.refLostMode ∧
      t.port.chanNotices = s.port.chanNotices ∧ t.port.head = s.port.head ∧ t.port.clearWait = s.port.clearWait ∧
      (s.port.hand ≠ .idle ∨ s.port.head = s.port.reqTail ∨ s.port.state ≠ .enabled → t.port.hand = s.port.hand) ∧
      (Quiet s → t.port.state = s.port.state ∧ t.port.produced = s.port.produced ∧
        t.port.reserved = s.port.reserved ∧ t.port.flags = s.port.flags ∧ t.chans = s.chans ∧ t.store = s.store) ∧
      t.port.reqBase.toNat =
        (if s.port.state = .disabled ∧ offset = 0 ∧ width = 8 then value
         else if s.port.state = .disabled ∧ offset = 0 ∧ width = 4 then
          s.port.reqBase.toNat / 4294967296 * 4294967296 + value
         else if s.port.state = .disabled ∧ offset = 4 ∧ width = 4 then
          value * 4294967296 + s.port.reqBase.toNat % 4294967296
         else s.port.reqBase.toNat) ∧
      t.port.reqSize.toNat =
        (if s.port.state = .disabled ∧ offset = 8 ∧ width = 4 then value else s.port.reqSize.toNat) ∧
      t.port.ansBase.toNat =
        (if s.port.state = .disabled ∧ offset = 16 ∧ width = 8 then value
         else if s.port.state = .disabled ∧ offset = 16 ∧ width = 4 then
          s.port.ansBase.toNat / 4294967296 * 4294967296 + value
         else if s.port.state = .disabled ∧ offset = 20 ∧ width = 4 then
          value * 4294967296 + s.port.ansBase.toNat % 4294967296
         else s.port.ansBase.toNat) ∧
      t.port.ansSize.toNat =
        (if s.port.state = .disabled ∧ offset = 24 ∧ width = 4 then value else s.port.ansSize.toNat)) ∧
  (∀ (s : State) (value : Nat),
    exec (.portWordWrite 12 4 value) s = exec (.reqTailWrite value) s ∧
    exec (.portWordWrite 28 4 value) s = exec (.ansHeadWrite value) s ∧
    exec (.portWordWrite 32 4 1) s = exec .ringEnableOn s ∧ exec (.portWordWrite 32 4 0) s = exec .ringEnableOff s) ∧
  ∀ (s : State) (offset width value : Nat), offset = 12 ∨ offset = 28 ∨ offset = 32 →
    width ≠ 4 ∨ (offset = 32 ∧ 2 ≤ value) →
    ∃ t, exec (.portWordWrite offset width value) s = .next t ∧ Frame {} s t ∧ t.port.head = s.port.head ∧
      t.port.reqBase = s.port.reqBase ∧
      (Quiet s → t.port.state = s.port.state ∧ t.port.produced = s.port.produced ∧ t.port.reserved = s.port.reserved)

/-- REQ_TAIL and ANS_HEAD take a written value in ENABLED and STOPPING when it lies in the forward window to H + REQ_SIZE and
to A; otherwise, and while DISABLED, the word stands (R170, R173). A write of ANS_HEAD that lets the request in hand be taken
has it taken in the same event (R174). -/
def Obligations.HeadAndTailWritesJudged : Prop :=
  ∀ (s : State) (value : Nat),
    (∃ t, exec (.reqTailWrite value) s = .next t ∧ Frame { settings := true } s t ∧
      t.port.ansHead = s.port.ansHead ∧ t.port.reqBase = s.port.reqBase ∧ t.port.reqSize = s.port.reqSize ∧
      t.port.reqTail = (if s.port.state ≠ .disabled ∧
        (BitVec.ofNat 32 value - s.port.reqTail).toNat ≤ (s.port.head + s.port.reqSize - s.port.reqTail).toNat
        then BitVec.ofNat 32 value else s.port.reqTail)) ∧
    ∃ t, exec (.ansHeadWrite value) s = .next t ∧
      t.port.ansHead = (if s.port.state ≠ .disabled ∧
        (BitVec.ofNat 32 value - s.port.ansHead).toNat ≤ (s.port.produced - s.port.ansHead).toNat
        then BitVec.ofNat 32 value else s.port.ansHead) ∧
      ((∀ q, s.port.hand = .held q →
          canTake { s with port := { s.port with ansHead := t.port.ansHead } } (kindInHand q) = false) →
        Frame { settings := true } s t ∧ t.port.reqTail = s.port.reqTail ∧ t.port.ansBase = s.port.ansBase ∧
          t.port.ansSize = s.port.ansSize ∧ t.port.head = s.port.head) ∧
      ∀ q, s.port.hand = .held q →
        canTake { s with port := { s.port with ansHead := t.port.ansHead } } (kindInHand q) = true →
        exec .requestTake { s with port := { s.port with ansHead := t.port.ansHead } } = .next t

/-- A write of 1 to RING_ENABLE while DISABLED enables the rings exactly when sizes and bases are legal: H, A, V, the tail and
the head become 0 and the port record is written; while STOPPING it returns the port to ENABLED with them as they stand. A
write of 0 while ENABLED makes the port DISABLED when no answer is owed, else STOPPING until the last one is written; a request
in hand is dropped and a read in flight condemned (R171). -/
def Obligations.RingEnableStartsAndStops : Prop :=
  (∀ s : State, s.handed = [] → ∃ t, exec .ringEnableOn s = .next t ∧ Frame { settings := true } s t ∧
    t.port.reqBase = s.port.reqBase ∧ t.port.reqSize = s.port.reqSize ∧ t.port.ansBase = s.port.ansBase ∧
    t.port.ansSize = s.port.ansSize ∧ t.port.enables = s.port.enables ∧
    (s.port.state = .disabled →
      LegalRing s.port.reqSize ∧ LegalRing s.port.ansSize ∧ s.port.reqBase.toNat % 64 = 0 ∧
        s.port.ansBase.toNat % 32 = 0 →
      t.port.state = .enabled ∧ t.port.head = 0 ∧ t.port.reqTail = 0 ∧ t.port.ansHead = 0 ∧
        (Quiet s → t.port.produced = 0 ∧ t.port.reserved = 0) ∧
        Output.portRecord (s.port.ansBase + BitVec.ofNat 64 (32 * s.port.ansSize.toNat)) 0 t.port.produced ∈
          outputsSince s t) ∧
    (s.port.state = .disabled →
      ¬(LegalRing s.port.reqSize ∧ LegalRing s.port.ansSize ∧ s.port.reqBase.toNat % 64 = 0 ∧
        s.port.ansBase.toNat % 32 = 0) →
      t.port.state = .disabled ∧ t.port.head = s.port.head ∧ t.port.reqTail = s.port.reqTail ∧
        t.port.ansHead = s.port.ansHead) ∧
    (s.port.state ≠ .disabled → t.port.state = .enabled ∧ t.port.head = s.port.head ∧
      t.port.reqTail = s.port.reqTail ∧ t.port.ansHead = s.port.ansHead ∧
      (Quiet s → t.port.produced = s.port.produced ∧ t.port.reserved = s.port.reserved))) ∧
  ∀ s : State, s.port.state = .enabled → ∃ t, exec .ringEnableOff s = .next t ∧ Frame {} s t ∧
    t.port.head = s.port.head ∧
    t.port.state = (if t.port.reserved = 0 then .disabled else .stopping) ∧
    (s.port.reserved = 0 → t.port.state = .disabled) ∧
    (Quiet s → t.port.reserved = s.port.reserved ∧ t.port.produced = s.port.produced) ∧
    (s.port.hand = .reading → t.port.hand = .condemned) ∧ (∀ q, s.port.hand = .held q → t.port.hand = .idle)

/-- The read of a request entry ends: the request stands in hand as its bytes say, and is taken in the same event, as its own
row takes it, when R174's conditions hold; after a stop it is discarded (R171, R174). -/
def Obligations.ReadEndPutsRequestInHand : Prop :=
  ∀ (s : State) (entry : Option (List Byte)) (q : InHand), q = decodeEntry entry →
    ∃ t, exec (.requestReadDone entry) s = .next t ∧
      (s.port.hand = .reading → canTake s (kindInHand q) = false →
        Frame {} s t ∧ t.port.head = s.port.head ∧ t.port.hand = .held q) ∧
      (s.port.hand = .reading → canTake s (kindInHand q) = true →
        t.port.head = s.port.head + 1 ∧ (∀ tag r, q = .request tag r → exec (rowOf tag r) s = .next t) ∧
        (∀ tag kind, q = .unknown tag kind → requestWidths kind = none → exec (.badKind tag kind false) s = .next t) ∧
        (q = .failed → exec (.badKind 0 0 true) s = .next t)) ∧
      (s.port.hand ≠ .reading → Frame {} s t ∧ t.port.head = s.port.head) ∧
      (s.port.hand = .condemned → s.port.state ≠ .enabled → t.port.hand = .idle)

/-- A request of a kind not in the table is taken and answered BAD_KIND with its kind and tag; one whose read failed with kind
and tag 0 and the read-failure indication. Nothing else changes: from a quiet state every block stands exactly (R174, R175,
R177). -/
def Obligations.UnknownKindsAnsweredBadKind : Prop :=
  (∀ (s : State) (tag kind : Nat), s.port.hand.brings (.unknown tag kind) = true → canTake s 0 = true →
    requestWidths kind = none →
    ∃ t, exec (.badKind tag kind false) s = .next t ∧ Answered s t kind tag .badKind 0 [] ∧ Frame {} s t ∧
      t.port.head = s.port.head + 1 ∧ (Quiet s → OnlyAnswered s t)) ∧
  ∀ (s : State), s.port.hand.brings .failed = true → canTake s 0 = true →
    ∃ t, exec (.badKind 0 0 true) s = .next t ∧ Frame {} s t ∧ t.port.head = s.port.head + 1 ∧
      (Quiet s → OnlyAnswered s t) ∧
      ∃ address status, Output.answer address ⟨0, 0, .badKind, status, true, 0, []⟩ ∈ outputsSince s t

/-- REQUEST_TAKE takes whatever request is in hand exactly as that request's own row does (R174, R175). -/
def Obligations.RequestTakeRunsTheRow : Prop :=
  (∀ (s : State) (tag : Nat) (r : Request), s.port.hand = .held (.request tag r) → canTake s r.kind = true →
    ∃ t, exec .requestTake s = .next t ∧ exec (rowOf tag r) s = .next t ∧ t.port.head = s.port.head + 1) ∧
  ∀ (s : State) (tag kind : Nat), s.port.hand = .held (.unknown tag kind) → requestWidths kind = none →
    exec .requestTake s = exec (.badKind tag kind false) s

/-- Taking any request raises H by 1; the read of the next entry starts in the event when one waits and no SERVICE_CLEAR answer
is owed (R174, R183). -/
def Obligations.TakingRaisesTheHead : Prop :=
  ∀ (s : State) (tag : Nat) (r : Request), Offered s tag r →
    ∃ t, exec (rowOf tag r) s = .next t ∧ t.port.head = s.port.head + 1 ∧ t.pending = s.pending ∧
      t.port.hand = (if s.port.head + 1 ≠ s.port.reqTail ∧ t.port.clearWait = none then .reading else .idle) ∧
      (t.port.hand = .reading → Output.readHost
        (s.port.reqBase + BitVec.ofNat 64 (64 * ((s.port.head + 1).toNat % s.port.reqSize.toNat))) 64 ∈ outputsSince s t)

/-! ## Notices and SERVICE_CLEAR -/

/-- NOTICE_MODE stores the enables and modes of its scope, sets a LEVEL flag whose condition is true, and reports those that
stood before; the enables and modes of every other scope, and the port words, stand (R181). -/
def Obligations.NoticeModeStoresItsScope : Prop :=
  ∀ (s : State) (tag : Nat) (a : NoticeModeArgs) (m1 m2 : Mode), Offered s tag (.noticeMode a) → a.scope ≤ 65 →
    modeOfCode a.first = some m1 → modeOfCode a.second = some m2 →
    ∃ t, exec (.noticeMode tag a) s = .next t ∧ Frame { settings := true } s t ∧
      SettingsStand { s with port := { s.port with
        enables := t.port.enables, overloadMode := t.port.overloadMode, refLostMode := t.port.refLostMode,
        chanNotices := t.port.chanNotices } } t ∧
      (a.scope ≠ 64 → t.port.enables = s.port.enables ∧ t.port.overloadMode = s.port.overloadMode ∧
        t.port.refLostMode = s.port.refLostMode) ∧
      (a.scope = 64 →
        Answered s t 1 tag .ok 0
          [item1 s.port.enables.toNat, item1 s.port.overloadMode.code, item1 s.port.refLostMode.code] ∧
        t.port.enables = BitVec.ofNat 4 a.enables ∧ t.port.overloadMode = m1 ∧ t.port.refLostMode = m2 ∧
        t.port.chanNotices = s.port.chanNotices ∧
        (m1 = .level → s.store.overload = true → t.port.flags &&& PartFlag.overload ≠ 0) ∧
        (m2 = .level → s.time.refLost = true → t.port.flags &&& PartFlag.refLost ≠ 0)) ∧
      (a.scope < 64 →
        Answered s t 1 tag .ok 0 [item1 (s.port.notices a.scope).enables.toNat,
          item1 (s.port.notices a.scope).missingMode.code, item1 (s.port.notices a.scope).edgeMode.code] ∧
        (∀ c, t.port.notices c =
          if c = a.scope then ⟨BitVec.ofNat 7 a.enables, m1, m2⟩ else s.port.notices c) ∧
        (m1 = .level → (s.chan a.scope).missing = true → (t.chan a.scope).flags &&& ChanFlag.missing ≠ 0) ∧
        (m2 = .level → (s.chan a.scope).edge = true → (t.chan a.scope).flags &&& ChanFlag.edge ≠ 0)) ∧
      (a.scope = 65 →
        Answered s t 1 tag .ok 0 [item1 (s.port.notices 0).enables.toNat, item1 (s.port.notices 0).missingMode.code,
          item1 (s.port.notices 0).edgeMode.code] ∧
        ∀ c, c < 64 → t.port.notices c = ⟨BitVec.ofNat 7 a.enables, m1, m2⟩ ∧
          (m1 = .level → (s.chan c).missing = true → (t.chan c).flags &&& ChanFlag.missing ≠ 0) ∧
          (m2 = .level → (s.chan c).edge = true → (t.chan c).flags &&& ChanFlag.edge ≠ 0))

/-- NOTICE_TAKE reports the flags of its scope and the two conditions, and clears the flags its mask names; a flag outside the
mask stays (R182). RESET_SEEN and MEMBER, END, WITHDRAWN and REVISED are clear after the event. OVERLOAD, REF_LOST, MISSING and
EDGE, named in the mask of a take from a quiet state, stay set just where their mode is LEVEL and their condition holds, and
CUED and SHORT are clear. -/
def Obligations.NoticeTakeReadsAndClears : Prop :=
  ∀ (s : State) (tag : Nat) (a : NoticeTakeArgs), Offered s tag (.noticeTake a) → a.scope ≤ 64 →
    ∃ t, exec (.noticeTake tag a) s = .next t ∧
      (a.scope = 64 →
        Answered s t 2 tag .ok 0 [item1 s.port.flags.toNat, itemFlag s.store.overload, itemFlag s.time.refLost] ∧
        Frame { partFlags := true } s t ∧
        (∀ i, a.mask.testBit i = false → s.port.flags.getLsbD i = true → t.port.flags.getLsbD i = true) ∧
        (a.mask.testBit 0 = true → t.port.flags.getLsbD 0 = false) ∧
        (a.mask.testBit 3 = true → t.port.flags.getLsbD 3 = false) ∧
        (Quiet s →
          (∀ i, a.mask.testBit i = false → t.port.flags.getLsbD i = s.port.flags.getLsbD i) ∧
          (a.mask.testBit 1 = true → (t.port.flags.getLsbD 1 = true ↔
            s.port.flags.getLsbD 1 = true ∧ s.port.overloadMode = .level ∧ s.store.overload = true)) ∧
          (a.mask.testBit 2 = true → (t.port.flags.getLsbD 2 = true ↔
            s.port.flags.getLsbD 2 = true ∧ s.port.refLostMode = .level ∧ s.time.refLost = true)))) ∧
      (a.scope < 64 →
        Answered s t 2 tag .ok 0 [item1 (s.chan a.scope).flags.toNat, itemFlag (s.chan a.scope).missing,
          itemFlag (s.chan a.scope).edge] ∧
        Frame { chans := fun c => c = a.scope } s t ∧ (t.chan a.scope).kept = (s.chan a.scope).kept ∧
        (∀ i, a.mask.testBit i = false → (s.chan a.scope).flags.getLsbD i = true →
          (t.chan a.scope).flags.getLsbD i = true) ∧
        (∀ i, 2 ≤ i → i ≤ 4 → a.mask.testBit i = true → (t.chan a.scope).flags.getLsbD i = false) ∧
        (Quiet s →
          (∀ i, a.mask.testBit i = false → (t.chan a.scope).flags.getLsbD i = (s.chan a.scope).flags.getLsbD i) ∧
          (∀ i, i ≤ 4 → a.mask.testBit i = true → (t.chan a.scope).flags.getLsbD i = false) ∧
          (a.mask.testBit 5 = true → ((t.chan a.scope).flags.getLsbD 5 = true ↔ (s.chan a.scope).flags.getLsbD 5 = true ∧
            (s.port.notices a.scope).missingMode = .level ∧ (s.chan a.scope).missing = true)) ∧
          (a.mask.testBit 6 = true → ((t.chan a.scope).flags.getLsbD 6 = true ↔ (s.chan a.scope).flags.getLsbD 6 = true ∧
            (s.port.notices a.scope).edgeMode = .level ∧ (s.chan a.scope).edge = true))))

/-- SERVICE_CLEAR: every channel's record at its reset values, every pin FREE, bind and use counts 0, no RETIRING clip, no
start wait, DRAINING members ONLINE; LIVE clips, view definitions and volumes stand; the answer counts the channels that were
open, the transfers in flight and the answers written ABORTED, and waits only for transfers in flight (R183, R25, R26, R71,
R124, R160, R169). -/
def Obligations.ServiceClearReturnsToRest : Prop :=
  ∀ (s : State) (tag : Nat), Offered s tag .serviceClear → twf View.initial s.views = true →
    ∃ t, exec (.serviceClear tag) s = .next t ∧
      (∀ c, t.chan c = Channel.initial) ∧ (∀ p, t.pin p = Pin.initial) ∧
      (∀ v, t.view v = { s.view v with useCount := 0 }) ∧
      (∀ h, (t.clip h).bindCount = 0 ∧ (t.clip h).state ≠ .retiring) ∧
      (∀ h, (s.clip h).state = .live → t.clip h = { s.clip h with bindCount := 0 }) ∧
      (∀ c, tget none t.time.waits c = none) ∧
      (∀ m, m < 16 → (t.link m).member = if (s.link m).member = .draining then .online else (s.link m).member) ∧
      (∀ v, (t.volume v).members = (s.volume v).members ∧ (t.volume v).defined = (s.volume v).defined) ∧
      t.time.house = s.time.house ∧ t.time.measure = s.time.measure ∧ SettingsStand s t ∧ t.map.fetch = s.map.fetch ∧
      (s.handed = [] → anyTransfer s = false → t.port.clearWait = none ∧
        Answered s t 3 tag .ok 0 [item1 (openChannels s), item1 0, item2 (abortedWritten s t)]) ∧
      (s.handed = [] → anyTransfer s = true →
        t.port.clearWait = some ⟨⟨3, tag, s.port.taken⟩, openChannels s, transfersInFlight s, abortedWritten s t⟩)

/-! ## The Frame Map -/

/-- CLIP_MAKE makes the lowest FREE handle LIVE with the given cookie, volume, rate and growing, length 0 and no group, and
raises the volume's clip count (R8). -/
def Obligations.ClipMakeTakesLowestHandle : Prop :=
  ∀ (s : State) (tag : Nat) (a : ClipMakeArgs) (h : Nat), Offered s tag (.clipMake a) → a.volume < 8 →
    (s.volume a.volume).defined = true → a.rate ≤ 7 → 1 ≤ h → h ≤ 4095 → (s.clip h).state = .free →
    (∀ k < h, k = 0 ∨ (s.clip k).state ≠ .free) →
    ∃ t, exec (.clipMake tag a) s = .next t ∧ Answered s t 16 tag .ok 0 [item2 h] ∧
      Frame { map := true, volumes := true } s t ∧
      t.clip h = ⟨.live, a.cookie, a.volume, a.rate, 0, a.growing, [], 0, 0⟩ ∧ (∀ k, k ≠ h → t.clip k = s.clip k) ∧
      t.map.freePages = s.map.freePages ∧ t.map.freeTables = s.map.freeTables ∧ t.map.serial = s.map.serial ∧
      t.map.fetch = s.map.fetch ∧
      ∀ v, t.volume v = if v = a.volume then { s.volume v with clipCount := (s.volume v).clipCount + 1 } else s.volume v

/-- CLIP_AMEND gives a LIVE clip its new growing, length and cookie and reports the old growing and length (R9). Growing set, with
the length as it was, has no effect on a channel, whose list is not extended either (R66, R83): from a quiet state under the
first law in which a RUNNING channel's next unwritten period lies on its course, every channel stands. Growing cleared, with the
length as it was, ends the play of every following channel RUNNING at the live edge: HELD at 16L with END (R66, R60, R63;
`PlayEnded`). Every other channel plays on, and the due index of one that does not run is at the edge no more (R77). What a change of
length beside it does is in `LengthChangeReachesChannels`. The model's own: that the list stands when growing is set (log 14), that
a channel not at the edge keeps its records when it is cleared (log 13, DEDUCED), the change period in the answer of a CHAN_SPEED
pending at the end of play, which R187 gives as 0 outside RUNNING (log 36, DEDUCED), the fields `priorRecord` (log 15) and `atEdge`
(log 39). -/
def Obligations.ClipAmendStoresItsFields : Prop :=
  ∀ (s : State) (tag : Nat) (a : ClipAmendArgs), Offered s tag (.clipAmend a) → 1 ≤ a.clip → a.clip ≤ 4095 →
    (s.clip a.clip).state = .live → a.length ≤ 1048576 →
    ∃ t, exec (.clipAmend tag a) s = .next t ∧
      Answered s t 17 tag .ok 0 [itemFlag (s.clip a.clip).growing, item4 (s.clip a.clip).length] ∧
      Frame { map := true, chans := fun c => (s.chan c).clip = a.clip } s t ∧
      t.clip a.clip = { s.clip a.clip with growing := a.growing, length := a.length, cookie := a.cookie } ∧
      (∀ k, k ≠ a.clip → t.clip k = s.clip k) ∧ t.map.freePages = s.map.freePages ∧
      t.map.freeTables = s.map.freeTables ∧ t.map.serial = s.map.serial ∧
      (Quiet s → BindsHeld s → (s.clip a.clip).growing = false → a.growing = true → a.length = (s.clip a.clip).length →
        (∀ c, (s.chan c).state = .running → (s.chan c).entryAt (s.chan c).firstUnwritten = none ∨
          (cursorOf s (s.chan c) (s.chan c).firstUnwritten).isSome = true) →
        (∀ c, t.chan c = { s.chan c with listStands := (t.chan c).listStands }) ∧ t.rings = s.rings ∧ t.store = s.store) ∧
      ((s.clip a.clip).growing = true → a.growing = false → a.length = (s.clip a.clip).length →
        (∀ c, c < 64 → (s.chan c).clip = a.clip → (s.chan c).follow = true → (s.chan c).state = .running →
          (s.chan c).atEdge = true → PlayEnded s t c (s.chan c).lastFrame) ∧
        (∀ c, c < 64 → (s.chan c).clip = a.clip → (s.chan c).follow = true → (s.chan c).state ≠ .running →
          (t.chan c).kept = ({ s.chan c with atEdge := false } : Channel).kept ∧
          ((t.chan c).state = (s.chan c).state ∨ ((s.chan c).state = .cueing ∧ (t.chan c).state = .cued))) ∧
        ∀ c, (s.chan c).follow = false ∨ (s.chan c).atEdge = false → ChanStands s t c)

/-- A change of length reaches every bound channel: L becomes length − 1 where it follows, at most that otherwise, 0 with the
length, and I at most L. A RUNNING channel whose position lies beyond, or whose clip's length is now 0, ends play, HELD with END
(`PlayEnded`). One whose position lies within runs on under the new range: the first period, from the due index through the last
record period, whose position now differs is named in a REVOKE, with REVISED set, and where none differs no REVISED is set (R47,
R63, R65). Growing cleared in the same CLIP_AMEND comes second (R10, R66): a channel still at the edge then ends play there, and
every other one runs on all the same, its REVOKE that of the length change. So a following channel that showed length − 1 is
released from the old edge, be the length raised or lowered: a lower length leaves none at the edge, since 16L of the old L lies
beyond the new range. The model's own: that channels not at the edge keep their records (log 13, DEDUCED), the change period in
the answer of a CHAN_SPEED pending at the end of play, which R187 gives as 0 outside RUNNING (log 36, DEDUCED), the fields
`priorRecord` (log 15) and `atEdge` (log 39). -/
def Obligations.LengthChangeReachesChannels : Prop :=
  ∀ (s : State) (tag : Nat) (a : ClipAmendArgs) (c : Nat), Offered s tag (.clipAmend a) → 1 ≤ a.clip → a.clip ≤ 4095 →
    (s.clip a.clip).state = .live → a.length ≤ 1048576 → a.length ≠ (s.clip a.clip).length → c < 64 →
    (s.chan c).clip = a.clip →
    ∃ t, exec (.clipAmend tag a) s = .next t ∧
      (t.chan c).lastFrame =
        (if (s.chan c).follow then a.length - 1 else min (s.chan c).lastFrame (a.length - 1)) ∧
      (t.chan c).inPoint = min (s.chan c).inPoint (t.chan c).lastFrame ∧
      ((s.chan c).state = .running → a.length = 0 ∨ (s.chan c).pos > 16 * ((t.chan c).lastFrame : Int) + 15 →
        PlayEnded s t c (t.chan c).lastFrame) ∧
      ((s.chan c).state ≠ .running →
        (t.chan c).pos = clampPosition (t.chan c).inPoint (t.chan c).lastFrame (s.chan c).pos ∧
        ((t.chan c).state = (s.chan c).state ∨ ((s.chan c).state = .cueing ∧ (t.chan c).state = .cued)) ∧
        (t.chan c).atEdge = ((s.chan c).atEdge && (s.chan c).follow && (t.chan c).lastFrame == (s.chan c).lastFrame &&
          (s.chan c).pos == 16 * ((t.chan c).lastFrame : Int) && (!(s.clip a.clip).growing || a.growing))) ∧
      ∀ (old new : Course) (from' : Cursor), (s.chan c).state = .running → a.length ≠ 0 →
        (s.chan c).pos ≤ 16 * ((t.chan c).lastFrame : Int) + 15 →
        old = courseOf s (s.chan c) →
        new = { old with inPoint := (t.chan c).inPoint, lastFrame := (t.chan c).lastFrame } →
        from' = ⟨(s.chan c).dueIndex, clampPosition (t.chan c).inPoint (t.chan c).lastFrame (s.chan c).pos,
          (s.chan c).atEdge && (s.chan c).follow && (t.chan c).lastFrame == (s.chan c).lastFrame &&
            (s.chan c).pos == 16 * ((t.chan c).lastFrame : Int)⟩ →
        ((s.clip a.clip).growing = true → a.growing = false → from'.edge = true → PlayEnded s t c (t.chan c).lastFrame) ∧
        ((s.chan c).follow = true → (s.chan c).lastFrame + 1 = (s.clip a.clip).length →
          (t.chan c).state = .running ∧ (t.chan c).edge = false ∧ (t.chan c).atEdge = false) ∧
        ((s.clip a.clip).growing = false ∨ a.growing = true ∨ from'.edge = false →
          (t.chan c).state = .running ∧ (t.chan c).pos = from'.pos ∧ (t.chan c).atEdge = from'.edge ∧
          (t.chan c).dueIndex = (s.chan c).dueIndex ∧ (t.chan c).dueTime = (s.chan c).dueTime ∧
          (t.chan c).speed = (s.chan c).speed ∧ (t.chan c).course = (s.chan c).course ∧
          (∀ m, (s.chan c).recordAhead m = true → (∀ j < m, old.posAfter j (s.chan c).due = new.posAfter j from') →
            old.posAfter m (s.chan c).due ≠ new.posAfter m from' → Revised s t c (addPeriods (s.chan c).dueIndex m)) ∧
          ((∀ m, (s.chan c).recordAhead m = true → old.posAfter m (s.chan c).due = new.posAfter m from') →
            (t.chan c).flags &&& ChanFlag.revised = (s.chan c).flags &&& ChanFlag.revised))

/-- GROUP_FIX makes the group's slot UNIFORM under the next serial and leaves every other slot (R11, R12, R5); what it hands on to
entries, pins and channels is R16's (R16, R64, R116, R120). -/
def Obligations.GroupFixWritesUniformSlot : Prop :=
  ∀ (s : State) (tag : Nat) (a : GroupFixArgs) (n : Nat), Offered s tag (.groupFix a) → 1 ≤ a.clip → a.clip ≤ 4095 →
    (s.clip a.clip).state = .live → a.group ≤ 16383 → 1 ≤ a.present → a.present ≤ 64 → 1 ≤ a.size →
    a.size ≤ 268435456 → a.base + a.present * a.size ≤ (s.volume (s.clip a.clip).volume).capacity * 4096 →
    a.base + a.present * a.size ≤ 281474976710656 → s.map.serial = some n →
    ((s.clip a.clip).pageAbsent (a.group / 256) = false ∨ 0 < s.map.freePages) →
    ∃ t, exec (.groupFix tag a) s = .next t ∧
      Answered s t 18 tag .ok 0
        [item1 ((s.clip a.clip).slot a.group).code, item4 n, item4 ((s.clip a.clip).slot a.group).serial] ∧
      Frame { map := true, pins := true } s t ∧ GroupHanded s t a.clip a.group ∧
      (t.clip a.clip).slot a.group = .uniform n a.base a.size a.present ∧
      (∀ g, g ≠ a.group → (t.clip a.clip).slot g = (s.clip a.clip).slot g) ∧
      (∀ k, k ≠ a.clip → t.clip k = s.clip k) ∧ (t.clip a.clip).length = (s.clip a.clip).length ∧
      t.map.serial = (if n = 4294967295 then none else some (n + 1)) ∧
      (((s.clip a.clip).slot a.group) = .empty →
        t.map.freePages = s.map.freePages - (if (s.clip a.clip).pageAbsent (a.group / 256) then 1 else 0) ∧
        (t.clip a.clip).groupCount = (s.clip a.clip).groupCount + 1)

/-- GROUP_LIST accepted with entries to fetch sets a table and a page aside where it needs them and starts the read of the list;
with none it fills the group with 64 absent frames at once (R13), and hands the write on (R16). -/
def Obligations.GroupListStartsItsFetch : Prop :=
  ∀ (s : State) (tag : Nat) (a : GroupListArgs) (n : Nat), Offered s tag (.groupList a) → 1 ≤ a.clip → a.clip ≤ 4095 →
    (s.clip a.clip).state = .live → a.group ≤ 16383 → a.count ≤ 64 → s.map.serial = some n →
    (((s.clip a.clip).slot a.group).isListed = true ∨ (0 < s.map.freeTables ∧
      ((s.clip a.clip).pageAbsent (a.group / 256) = false ∨ 0 < s.map.freePages))) →
    ∃ t, exec (.groupList tag a) s = .next t ∧ (∀ k, k ≠ a.clip → t.clip k = s.clip k) ∧
      (1 ≤ a.count →
        Frame { map := true } s t ∧ t.clip a.clip = s.clip a.clip ∧ t.map.serial = some n ∧
        t.map.fetch = some ⟨⟨19, tag, s.port.taken⟩, a.clip, a.group, a.count,
          !((s.clip a.clip).slot a.group).isListed, (s.clip a.clip).pageAbsent (a.group / 256)⟩ ∧
        t.map.freeTables = s.map.freeTables - (if ((s.clip a.clip).slot a.group).isListed then 0 else 1) ∧
        t.map.freePages = s.map.freePages - (if (s.clip a.clip).pageAbsent (a.group / 256) then 1 else 0) ∧
        Output.readHost (BitVec.ofNat 64 a.address) (16 * a.count) ∈ outputsSince s t) ∧
      (a.count = 0 →
        Frame { map := true, pins := true } s t ∧ GroupHanded s t a.clip a.group ∧
        Answered s t 19 tag .ok 0
          [item1 ((s.clip a.clip).slot a.group).code, item1 0, item4 n, item4 ((s.clip a.clip).slot a.group).serial] ∧
        (t.clip a.clip).slot a.group = .listed n (List.replicate 64 none) ∧ t.map.fetch = none)

/-- The end of a GROUP_LIST's fetch: when every entry passes, the slot is LISTED under the next serial with the entries'
frames, and the write is handed on (R16); otherwise the group stands and the answer is RANGE with the index of the first that
fails, 64 for a failed read (R14). A map request in hand, which waited for this, is taken in the same event (R7, R174). -/
def Obligations.FetchEndFillsTheGroup : Prop :=
  ∀ (s : State) (f : Fetch) (n : Nat) (list : Option (List Byte)), s.map.fetch = some f → s.map.serial = some n →
    ∃ t, exec (.groupListFetchEnd list) s = .next t ∧
      (∀ b, list = some b → (decodeList f.count b).findIdx? (badListEntry (byteCapacity s f.clip)) = none →
        Answered s t f.ticket.kind f.ticket.tag .ok 0
          [item1 ((s.clip f.clip).slot f.group).code,
            item1 ((decodeList f.count b).filter (fun e => e.2 != 0)).length, item4 n,
            item4 ((s.clip f.clip).slot f.group).serial]) ∧
      (∀ b i, list = some b → (decodeList f.count b).findIdx? (badListEntry (byteCapacity s f.clip)) = some i →
        Answered s t f.ticket.kind f.ticket.tag .range 0 [item1 0, item1 i]) ∧
      (list = none → Answered s t f.ticket.kind f.ticket.tag .range 0 [item1 0, item1 64]) ∧
      (∀ q, s.port.hand = .held q →
        canTake { s with map := { s.map with fetch := none } } (kindInHand q) = true → t.port.head = s.port.head + 1) ∧
      ((∀ q, s.port.hand = .held q →
          canTake { s with map := { s.map with fetch := none } } (kindInHand q) = false) →
        t.map.fetch = none ∧ t.port.head = s.port.head ∧ (∀ k, k ≠ f.clip → t.clip k = s.clip k) ∧
        (∀ b, list = some b → (decodeList f.count b).findIdx? (badListEntry (byteCapacity s f.clip)) = none →
          Frame { map := true, pins := true } s t ∧ (f.clip ≠ 0 → GroupHanded s t f.clip f.group) ∧
          (t.clip f.clip).slot f.group = .listed n ((decodeList f.count b).map (fun e =>
            if e.2 = 0 then none else some ⟨e.1, e.2⟩) ++ List.replicate (64 - (decodeList f.count b).length) none) ∧
          (∀ g, g ≠ f.group → (t.clip f.clip).slot g = (s.clip f.clip).slot g) ∧
          t.map.serial = (if n = 4294967295 then none else some (n + 1))) ∧
        (∀ b i, list = some b → (decodeList f.count b).findIdx? (badListEntry (byteCapacity s f.clip)) = some i →
          Frame { map := true } s t ∧ t.clip f.clip = s.clip f.clip ∧ t.map.serial = some n) ∧
        (list = none → Frame { map := true } s t ∧ t.clip f.clip = s.clip f.clip ∧ t.map.serial = some n))

/-- GROUP_DROP empties the group's slot and reports its kind and serial, the write handed on; an EMPTY slot is reported and
nothing changes (R15, R16). -/
def Obligations.GroupDropEmptiesTheSlot : Prop :=
  ∀ (s : State) (tag : Nat) (a : GroupDropArgs), Offered s tag (.groupDrop a) → 1 ≤ a.clip → a.clip ≤ 4095 →
    (s.clip a.clip).state = .live → a.group ≤ 16383 →
    ∃ t, exec (.groupDrop tag a) s = .next t ∧ (t.clip a.clip).slot a.group = .empty ∧
      (∀ g, g ≠ a.group → (t.clip a.clip).slot g = (s.clip a.clip).slot g) ∧
      (∀ k, k ≠ a.clip → t.clip k = s.clip k) ∧ t.map.serial = s.map.serial ∧
      ((s.clip a.clip).slot a.group = .empty →
        Frame {} s t ∧ Answered s t 20 tag .ok 0 [item1 0, item1 0, item4 0]) ∧
      ((s.clip a.clip).slot a.group ≠ .empty →
        Frame { map := true, pins := true } s t ∧ GroupHanded s t a.clip a.group ∧
        Answered s t 20 tag .ok 0 [item1 ((s.clip a.clip).slot a.group).code,
          itemFlag ((t.clip a.clip).pageAbsent (a.group / 256)), item4 ((s.clip a.clip).slot a.group).serial])

/-- CLIP_RETIRE frees an unbound LIVE clip at once and makes a bound one RETIRING; with withdraw it unbinds every bound channel,
which goes IDLE with WITHDRAWN, and frees the clip (R20, R21, R22, R67). -/
def Obligations.ClipRetireFreesOrRetires : Prop :=
  ∀ (s : State) (tag : Nat) (a : ClipRetireArgs), Offered s tag (.clipRetire a) → 1 ≤ a.clip → a.clip ≤ 4095 →
    (s.clip a.clip).state ≠ .free →
    ∃ t, exec (.clipRetire tag a) s = .next t ∧ (∀ k, k ≠ a.clip → t.clip k = s.clip k) ∧
      (a.withdraw = false → (s.clip a.clip).state = .live → (s.clip a.clip).bindCount = 0 →
        t.clip a.clip = Clip.initial ∧ Answered s t 21 tag .ok 0 [item1 1, item1 0] ∧
        Frame { map := true, volumes := true, pins := true } s t ∧
        (t.volume (s.clip a.clip).volume).clipCount = (s.volume (s.clip a.clip).volume).clipCount - 1) ∧
      (a.withdraw = false → ¬((s.clip a.clip).state = .live ∧ (s.clip a.clip).bindCount = 0) →
        t.clip a.clip = { s.clip a.clip with state := .retiring } ∧
        Answered s t 21 tag .ok 0 [item1 0, item1 (s.clip a.clip).bindCount] ∧ Frame { map := true } s t) ∧
      (a.withdraw = true →
        t.clip a.clip = Clip.initial ∧ Answered s t 21 tag .ok 0 [item1 1, item1 (bindsOf s a.clip)] ∧
        Frame (Touched.binding (fun c => (s.chan c).clip = a.clip) (fun _ => False)) s t ∧
        ∀ c, c < 64 → (s.chan c).clip = a.clip →
          (t.chan c).state = .idle ∧ (t.chan c).clip = 0 ∧ (t.chan c).view = none ∧ (t.chan c).pos = 0 ∧
            (t.chan c).flags &&& ChanFlag.withdrawn ≠ 0)

/-- CLIP_ASK reports a clip's record and changes nothing (R23): from a quiet state every block stands exactly. -/
def Obligations.ClipAskReportsTheRecord : Prop :=
  ∀ (s : State) (tag h : Nat), Offered s tag (.clipAsk h) →
    ∃ t, exec (.clipAsk tag h) s = .next t ∧ Frame {} s t ∧ (Quiet s → OnlyAnswered s t) ∧
      ((1 ≤ h ∧ h ≤ 4095 ∧ (s.clip h).state ≠ .free) →
        Answered s t 22 tag .ok 0
          [item1 (s.clip h).state.code, itemFlag (s.clip h).growing, item1 (s.clip h).volume, item1 (s.clip h).rate,
            item1 (s.clip h).bindCount, item1 (s.clip h).pages.length, item2 (s.clip h).groupCount,
            item4 (s.clip h).length, item8 (s.clip h).cookie]) ∧
      (¬(1 ≤ h ∧ h ≤ 4095 ∧ (s.clip h).state ≠ .free) → Answered s t 22 tag .badHandle 0 [])

/-- FRAME_ASK, CHAN_ASK, STORE_ASK and TIME_ASK answer OK with what stands, item by item, and change nothing: from a quiet
state every block stands exactly (R24, R4, R6, R69, R123, R168, R187, R188). That FRAME_ASK writes the entry's state, reason and
pin count 0, a byte each, where it finds no entry is the model's choice (log 44). -/
def Obligations.AsksReportAndChangeNothing : Prop :=
  (∀ (s : State) (tag i : Nat) (a : FrameAskArgs) (g : GroupSlot), Offered s tag (.frameAsk a) → 1 ≤ a.clip →
    a.clip ≤ 4095 → (s.clip a.clip).state ≠ .free → viewDefined s a.view = true → i = a.frame % 64 →
    g = (if a.frame < 1048576 then (s.clip a.clip).slot (a.frame / 64) else .empty) →
    ∃ t, exec (.frameAsk tag a) s = .next t ∧ Frame {} s t ∧ (Quiet s → OnlyAnswered s t) ∧
      ((s.clip a.clip).length ≤ a.frame →
        Answered s t 23 tag .ok 0 [item1 0, item1 g.code, itemFlag false, item1 0, item1 0, item1 0, item2 0, item4 g.serial,
          item4 0, item8 0]) ∧
      (a.frame < (s.clip a.clip).length → a.frame < 1048576 → (∀ n b z p, g = .uniform n b z p → p ≤ i) →
        (∀ n table, g = .listed n table → ∀ l, table[i]? ≠ some (some l)) →
        Answered s t 23 tag .ok 0 [item1 1, item1 g.code, itemFlag false, item1 0, item1 0, item1 0, item2 0, item4 g.serial,
          item4 0, item8 0]) ∧
      ∀ n address size, a.frame < (s.clip a.clip).length → a.frame < 1048576 →
        (∃ b p, g = .uniform n b size p ∧ i < p ∧ address = b + i * size) ∨
          (∃ table, g = .listed n table ∧ table[i]? = some (some ⟨address, size⟩)) →
        ((findEntry s ⟨n, i, a.view⟩).bind s.entry = none →
          Answered s t 23 tag .ok 0 [item1 2, item1 g.code, itemFlag false, item1 0, item1 0, item1 0, item2 0, item4 n,
            item4 size, item8 address]) ∧
        ∀ id e, findEntry s ⟨n, i, a.view⟩ = some id → s.entry id = some e →
          Answered s t 23 tag .ok 0 [item1 2, item1 g.code, itemFlag true, item1 e.state.code, item1 e.state.reasonCode,
            item1 e.pins, item2 e.refs, item4 n, item4 size, item8 address]) ∧
  (∀ (s : State) (tag : Nat) (a : PageAskArgs) (ch : Channel) (r : Ring), Offered s tag (.chanAsk a) → a.number < 64 →
    ch = s.chan a.number → r = s.ring a.number → ch.state ≠ .free →
    ∃ t, exec (.chanAsk tag a) s = .next t ∧ Frame {} s t ∧ (Quiet s → OnlyAnswered s t) ∧
      (a.page = 0 → Answered s t 58 tag .ok 0
        [item1 ch.state.code, item1 (ch.view.getD 255), itemFlag ch.loop, itemFlag ch.follow,
          item1 (if ch.phase = .prime then 1 else 0), item1 (ch.list.countP (fun e => (ch.unwrittenIn e).isSome)),
          item1 ch.flags.toNat, itemFlag ch.course.isSome, item2 ch.clip, item2s ch.speed, item2 ch.remaining,
          item1 (r.produce - r.returned).toNat, item1 (r.slotCount - (r.produce - r.returned).toNat - r.taken),
          item4 ch.inPoint, item4 ch.lastFrame]) ∧
      (a.page = 1 → Answered s t 58 tag .ok 0
        [itemFlag ch.start.isSome, itemFlag ch.lastRecord.isSome, item4s ch.pos, item4 ch.period, item4 ch.dueIndex.toNat,
          item4 (ch.lastRecord.elim 0 BitVec.toNat), item4 (ch.course.elim 0 (fun q => q.change.toNat))]) ∧
      (2 ≤ a.page → Answered s t 58 tag .ok 0 [itemFlag ch.dueTime.isSome, item8 (ch.dueTime.getD 0)])) ∧
  (∀ (s : State) (tag : Nat) (a : PageAskArgs) (count pages : (Entry → Bool) → Nat), Offered s tag (.storeAsk a) →
    a.number = 255 ∨ (a.number < 32 ∧ (s.pin a.number).state ≠ .free) →
    (∀ p, count p = s.store.entries.countP (fun x => x.2.any p)) →
    (∀ p, pages p = (s.store.entries.map (fun x => x.2.elim 0 (fun e => if p e then e.pages.length else 0))).sum) →
    ∃ t, exec (.storeAsk tag a) s = .next t ∧ Frame {} s t ∧ (Quiet s → OnlyAnswered s t) ∧
      (a.page = 0 → Answered s t 82 tag .ok 0
        [item4 s.store.freePages,
          item4 (pages (fun e => e.refs == 0 && e.pins == 0 && e.transfers == 0 && e.state != .filling &&
            e.state != .abandoned)),
          item4 (count (fun _ => true)), item4 (count (fun e => e.state == .filling && !e.granted)),
          item4 (count (fun e => e.state == .filling && e.granted)), item4 (count (fun e => e.state == .ready))]) ∧
      (a.page = 1 → ∃ total,
        total = (s.store.entries.map (fun x => x.2.elim 0 (fun e => if 0 < e.pins then e.pageNeed else 0))).sum ∧
        Answered s t 82 tag .ok 0
          [item4 (count (fun e => e.state != .filling && e.state != .ready && e.state != .abandoned)),
            item4 (count (fun e => e.state == .abandoned)), item4 (count (fun e => e.orphan)), item4 total,
            item2 (count (fun e => 0 < e.pins)), itemFlag s.store.overload]) ∧
      (2 ≤ a.page → a.number = 255 →
        Answered s t 82 tag .ok 0 [item1 0, item1 0, item2 0, item2 0, item2 0, item4 0, item2 0]) ∧
      (2 ≤ a.page → a.number ≠ 255 → Answered s t 82 tag .ok 0
        [item1 (s.pin a.number).state.code, item1 (s.pin a.number).view, item2 (s.pin a.number).clip,
          item2 (s.pin a.number).count, item2 (s.pin a.number).held, item4 (s.pin a.number).first,
          item2 ((s.pin a.number).covered.countP (fun x => (s.entry x.2).any (fun e => e.state == .ready)))])) ∧
  ∀ (s : State) (tag : Nat), Offered s tag .timeAsk →
    ∃ t, exec (.timeAsk tag) s = .next t ∧ Frame {} s t ∧ (Quiet s → OnlyAnswered s t) ∧ Answered s t 113 tag .ok 0
      [item8 s.time.house, item4 (s.time.refPeriod.getD 0), item4 s.time.cycles,
        item4 ((s.time.lastPulse.getD 0) % 4294967296), item2s s.time.figure, item1 s.time.stateByte,
        item1 (waitingChannels s).length]

/-! ## Views and placement -/

/-- VIEW_DEFINE gives an unclaimed view its shape, or with clear makes it UNDEFINED, and reports its state before; a claimed view
is refused with its use count (R28, R29). -/
def Obligations.ViewDefineStoresTheShape : Prop :=
  ∀ (s : State) (tag : Nat) (a : ViewDefineArgs), Offered s tag (.viewDefine a) → 1 ≤ a.view → a.view ≤ 15 →
    ∃ t, exec (.viewDefine tag a) s = .next t ∧ (∀ v, v ≠ a.view → t.view v = s.view v) ∧ Frame { views := true } s t ∧
      ((s.view a.view).useCount ≠ 0 →
        t.view a.view = s.view a.view ∧ Answered s t 32 tag .badState 0 [item1 0, item1 (s.view a.view).useCount]) ∧
      ((s.view a.view).useCount = 0 → a.clear = true →
        t.view a.view = ⟨false, ⟨0, 0, 0, 0, 0, 0, 0⟩, 0⟩ ∧
        Answered s t 32 tag .ok 0 [itemFlag (s.view a.view).defined, item1 0]) ∧
      ((s.view a.view).useCount = 0 → a.clear = false → a.shape.lead ≤ 65535 →
        1 ≤ a.shape.lineBytes ∧ a.shape.lineBytes ≤ 1048576 → a.shape.firstLine ≤ 65535 →
        1 ≤ a.shape.lineCount ∧ a.shape.lineCount ≤ 8192 →
        a.shape.lineStep = 1 ∨ a.shape.lineStep = 2 ∨ a.shape.lineStep = 4 → 1 ≤ a.shape.colBytes →
        a.shape.colOffset + a.shape.colBytes ≤ a.shape.lineBytes →
        t.view a.view = ⟨true, a.shape, 0⟩ ∧ Answered s t 32 tag .ok 0 [itemFlag (s.view a.view).defined, item1 0])

/-- The effective line count is the greatest number of selected lines, at most the view's, that lie within the frame; the size
answer is that many lines' column bytes, VIEW_OUTSIDE for none (R33, R30). -/
def Obligations.LineCountIsWhatFits : Prop :=
  ∀ (view : Nat) (h : Shape) (size : Nat), view ≠ 0 → 1 ≤ h.lineBytes → 1 ≤ h.lineStep →
    lineCountOf h size ≤ h.lineCount ∧
    (∀ i < lineCountOf h size,
      h.lead + (h.firstLine + i * h.lineStep) * h.lineBytes + h.colOffset + h.colBytes ≤ size) ∧
    (lineCountOf h size < h.lineCount →
      size < h.lead + (h.firstLine + lineCountOf h size * h.lineStep) * h.lineBytes + h.colOffset + h.colBytes) ∧
    sizeOf view h size = if lineCountOf h size = 0 then none
      else some (lineCountOf h size * h.colBytes, decide (lineCountOf h size < h.lineCount))

/-- On a volume without parity the piece of unit u lies on member index u mod W at sector b + (u div W) × U + off, all within one
unit, and has no other place (R37). -/
def Obligations.PlainVolumePlacement : Prop :=
  ∀ (v : Volume) (view : Nat) (h : Shape) (loc : Location) (p : Piece), v.parity = false → 0 < v.unit → v.members ≠ [] →
    p ∈ planOf v view h loc →
    p.memberIndex = p.unit % v.members.length ∧ v.members[p.memberIndex]? = some p.member ∧
      p.sector = v.base + p.unit / v.members.length * v.unit + p.offset ∧ p.offset + p.count ≤ v.unit ∧
      ∀ (s : State) (k : Nat), s.volume k = v → reconstructible s k p = false

/-- On a volume with parity no unit lies on its stripe's parity member, and two units of a stripe lie on different members, at
the same member sectors (R38). -/
def Obligations.ParityVolumePlacement : Prop :=
  ∀ (v : Volume) (u u' off : Nat), v.parity = true → 2 ≤ v.members.length →
    u / (v.members.length - 1) = u' / (v.members.length - 1) → u ≠ u' →
    (placeUnit v u off).1 < v.members.length ∧
      (placeUnit v u off).1 ≠ (v.members.length - 1) - u / (v.members.length - 1) % v.members.length ∧
      (placeUnit v u off).1 ≠ (placeUnit v u' off).1 ∧ (placeUnit v u off).2 = (placeUnit v u' off).2 ∧
      (placeUnit v u off).2 = v.base + u / (v.members.length - 1) * v.unit + off

/-- Every byte a view selects of a frame is carried by an extract of some piece of the plan, from its own place on the volume to
its delivered place (R34 to R36, R39). -/
def Obligations.EverySelectedByteIsPlaced : Prop :=
  ∀ (v : Volume) (view : Nat) (h : Shape) (loc : Location) (r : ByteRange) (b : Nat), 0 < v.unit →
    r ∈ byteRanges view h loc → r.start ≤ b → b < r.stop →
    ∃ p ∈ planOf v view h loc, ∃ x ∈ p.extracts,
      x.delivered ≤ r.delivered + (b - r.start) ∧ r.delivered + (b - r.start) < x.delivered + x.length ∧
        (p.unit * v.unit + p.offset) * 4096 + x.pieceOffset + (r.delivered + (b - r.start) - x.delivered) = b

/-! ## Channels -/

/-- A channel request that names a channel above 63 or FREE is answered BAD_HANDLE and changes nothing (R46, R69, R102):
from a quiet state every block stands exactly. -/
def Obligations.ChannelRequestsNeedAnOpenChannel : Prop :=
  ∀ (s : State) (tag : Nat) (r : Request) (c : Nat), Offered s tag r → openChannelOf r = some c →
    64 ≤ c ∨ (s.chan c).state = .free →
    ∃ t, exec (rowOf tag r) s = .next t ∧ Answered s t r.kind tag .badHandle 0 [] ∧ Frame {} s t ∧
      (Quiet s → OnlyAnswered s t)

/-- CHAN_OPEN opens a FREE channel: its record takes its reset values, its ring, margin and depths the request's, its state IDLE
with an empty list, no cue and no record; no flag stands unless the FREE record held a condition that now falls; the produce
word is written 0 (R48, R93). -/
def Obligations.ChanOpenSetsTheRecord : Prop :=
  ∀ (s : State) (tag : Nat) (a : ChanOpenArgs), Offered s tag (.chanOpen a) → a.channel < 64 →
    (s.chan a.channel).state = .free → (s.chan a.channel).closeTicket = none → 2 ≤ a.slotCount → a.slotCount ≤ 64 →
    4096 ≤ a.slotBytes → a.slotBytes ≤ 268435456 → a.slotBytes % 4096 = 0 → a.leadMargin ≤ 2700000 →
    ∃ t, exec (.chanOpen tag a) s = .next t ∧
      Frame { chans := fun c => c = a.channel, rings := fun c => c = a.channel } s t ∧
      (t.chan a.channel).state = .idle ∧ (t.chan a.channel).list = [] ∧ (t.chan a.channel).cue = none ∧
      (t.chan a.channel).cueExpiry = none ∧ (t.chan a.channel).lastRecord = none ∧
      ((s.chan a.channel).missing = false → (s.chan a.channel).edge = false → (t.chan a.channel).flags = 0) ∧
      (t.chan a.channel).kept = { Channel.initial with
        ringBase := a.ringBase, recordArea := a.recordArea, slotCount := a.slotCount, slotBytes := a.slotBytes,
        leadMargin := a.leadMargin,
        primeDepth := if a.defaults then 16 else min 32 (max 1 a.primeDepth),
        sustainDepth := if a.defaults then 6 else min 32 (max 1 a.sustainDepth),
        primePeriods := if a.defaults then 48 else min 1023 a.primePeriods } ∧
      (t.ring a.channel).kept = { Ring.initial with
        base := a.ringBase, recordArea := a.recordArea, slotCount := a.slotCount, slotBytes := a.slotBytes } ∧
      Output.produceWord (BitVec.ofNat 64 (a.recordArea + 32 * a.slotCount)) 0 ∈ outputsSince s t ∧
      Answered s t 48 tag .ok 0 [item1 (t.chan a.channel).primeDepth, item1 (t.chan a.channel).sustainDepth,
        item2 (t.chan a.channel).primePeriods]

/-- CHAN_BIND binds a channel that is not RUNNING to a LIVE clip under a DEFINED view: the binding is the request's, the position
16I, the state IDLE, the list empty; a waiting cue and a pending start are SUPERSEDED; the clip and view of the new binding are
counted and those of the old one given up, a RETIRING clip freed by the unbind that brings its count to 0 (R49, R50, R19,
R27). -/
def Obligations.ChanBindSetsTheBinding : Prop :=
  ∀ (s : State) (tag : Nat) (a : ChanBindArgs), Offered s tag (.chanBind a) → a.channel < 64 →
    (s.chan a.channel).state ≠ .free → (s.chan a.channel).state ≠ .running → a.rateOverride ≤ 7 ∨ a.rateOverride = 255 →
    1 ≤ a.clip → a.clip ≤ 4095 → (s.clip a.clip).state = .live → viewDefined s a.view = true →
    a.inPoint ≤ (if a.follow then (s.clip a.clip).length - 1 else a.lastFrame) →
    a.follow = true ∨ a.lastFrame + 1 ≤ (s.clip a.clip).length →
    ∃ t, exec (.chanBind tag a) s = .next t ∧
      Frame (Touched.binding (fun c => c = a.channel) (fun _ => False)) s t ∧
      (t.chan a.channel).state = .idle ∧ (t.chan a.channel).list = [] ∧
      (t.chan a.channel).kept = ({ s.chan a.channel with
        clip := a.clip, view := some a.view, inPoint := a.inPoint,
        lastFrame := if a.follow then (s.clip a.clip).length - 1 else a.lastFrame,
        loop := a.loop, follow := a.follow, alignDefault := a.alignDefault,
        rateOverride := if a.rateOverride = 255 then none else some a.rateOverride,
        period := ratePeriod (if a.rateOverride = 255 then (s.clip a.clip).rate else a.rateOverride),
        pos := 16 * (a.inPoint : Int), phase := .sustain, remaining := 0, dueTime := none, base := none, start := none,
        missing := false, edge := false, atEdge := false } : Channel).kept ∧
      Answered s t 49 tag .ok 0 [itemFlag (s.clip a.clip).growing, item4 (t.chan a.channel).lastFrame,
        item4 (t.chan a.channel).period, item4 (s.clip a.clip).length] ∧
      (∀ q, (s.chan a.channel).cue = some q → Answered s t q.ticket.kind q.ticket.tag .superseded 0 []) ∧
      (∀ q, (s.chan a.channel).start = some q → Answered s t q.ticket.kind q.ticket.tag .superseded 0 []) ∧
      (t.clip a.clip).bindCount =
        (s.clip a.clip).bindCount + (if (s.chan a.channel).clip = a.clip then 0 else 1) ∧
      (∀ h, (s.chan a.channel).clip = h → h ≠ 0 → h ≠ a.clip →
        ((s.clip h).state = .live → t.clip h = { s.clip h with bindCount := (s.clip h).bindCount - 1 }) ∧
        ((s.clip h).state = .retiring → t.clip h =
          if (s.clip h).bindCount ≤ 1 then Clip.initial
          else { s.clip h with bindCount := (s.clip h).bindCount - 1 })) ∧
      (t.view a.view).useCount =
        (s.view a.view).useCount + (if (s.chan a.channel).view = some a.view then 0 else 1) ∧
      ∀ v, (s.chan a.channel).view = some v → v ≠ a.view → (t.view v).useCount = (s.view v).useCount - 1

/-- CHAN_OPTIONS gives a bound channel its loop, follow, range, align default and lead margin; outside RUNNING its position is
clamped into the range at once (R51, R47), and a due index at the live edge stays there only while the channel follows with the
same L (R77; the model's own field `atEdge`, log 39). CHAN_DEPTH gives a channel its depths, clamped, and lowers a PRIME count above the
new prime periods (R52). -/
def Obligations.ChanOptionsAndDepthStored : Prop :=
  (∀ (s : State) (tag : Nat) (a : ChanOptionsArgs) (length last : Nat), Offered s tag (.chanOptions a) →
    a.channel < 64 → (s.chan a.channel).state ≠ .free → (s.chan a.channel).clip ≠ 0 → a.leadMargin ≤ 2700000 →
    length = (s.clip (s.chan a.channel).clip).length → last = (if a.follow then length - 1 else a.lastFrame) →
    a.inPoint ≤ last → a.follow = true ∨ a.lastFrame + 1 ≤ length →
    ∃ t, exec (.chanOptions tag a) s = .next t ∧ Frame { chans := fun c => c = a.channel } s t ∧
      (t.chan a.channel).loop = a.loop ∧ (t.chan a.channel).follow = a.follow ∧
      (t.chan a.channel).inPoint = a.inPoint ∧ (t.chan a.channel).lastFrame = last ∧
      (t.chan a.channel).alignDefault = a.alignDefault ∧ (t.chan a.channel).leadMargin = a.leadMargin ∧
      (t.chan a.channel).speed = (s.chan a.channel).speed ∧ (t.chan a.channel).dueIndex = (s.chan a.channel).dueIndex ∧
      ((s.chan a.channel).state ≠ .running →
        (t.chan a.channel).pos = clampPosition a.inPoint last (s.chan a.channel).pos) ∧
      ((s.chan a.channel).state = .running → (t.chan a.channel).state = .running) ∧
      (PositionsHeld s → (t.chan a.channel).atEdge =
        ((s.chan a.channel).atEdge && a.follow && last == (s.chan a.channel).lastFrame)) ∧
      Answered s t 50 tag .ok 0 [item4 a.inPoint, item4 last, item4s (t.chan a.channel).pos]) ∧
  ∀ (s : State) (tag : Nat) (a : ChanDepthArgs), Offered s tag (.chanDepth a) → a.channel < 64 →
    (s.chan a.channel).state ≠ .free →
    ∃ t, exec (.chanDepth tag a) s = .next t ∧ Frame { chans := fun c => c = a.channel } s t ∧
      (t.chan a.channel).kept = ({ s.chan a.channel with
        primeDepth := min 32 (max 1 a.primeDepth), sustainDepth := min 32 (max 1 a.sustainDepth),
        primePeriods := min 1023 a.primePeriods,
        remaining := if (s.chan a.channel).phase = .prime then min (s.chan a.channel).remaining (min 1023 a.primePeriods)
          else (s.chan a.channel).remaining,
        phase := if (s.chan a.channel).phase = .prime ∧ 0 < (s.chan a.channel).remaining ∧ a.primePeriods = 0
          then .sustain else (s.chan a.channel).phase } : Channel).kept ∧
      Answered s t 51 tag .ok 0 [item1 (min 32 (max 1 a.primeDepth)), item1 (min 32 (max 1 a.sustainDepth)),
        item2 (min 1023 a.primePeriods)]

/-- CHAN_CUE of a bound channel outside RUNNING, and CHAN_JUMP of one that is also not IDLE, clamp the position, restart PRIME and
cue the channel, the reckoning based on the present house time; the request waits with its expiry 54,000,000 ticks later, or
the cue completes in the event; a cue that waited before is SUPERSEDED. CHAN_JUMP in RUNNING moves the position from the due
index on and answers at once (R53, R54, R62). That the due index is then none at the live edge, at 16L too, is the model's choice
(log 39), and so are the short and entries-counted items 0 of the answer in RUNNING, of which R62 names the position and n_c alone
(log 55, DESIGN CHOICE); that the CHAN_SPEED a jump supersedes is answered without items is DEDUCED (R187, log 36). -/
def Obligations.CuesAndJumpsMoveThePosition : Prop :=
  (∀ (s : State) (tag kind : Nat) (a : PositionArgs) (i : Instr), a.channel < 64 → (s.chan a.channel).state ≠ .free →
    (s.chan a.channel).state ≠ .running → (s.chan a.channel).clip ≠ 0 →
    (s.clip (s.chan a.channel).clip).length ≠ 0 →
    (i = .chanCue tag a ∧ kind = 52 ∧ Offered s tag (.chanCue a)) ∨
      (i = .chanJump tag a ∧ kind = 56 ∧ Offered s tag (.chanJump a) ∧ (s.chan a.channel).state ≠ .idle) →
    ∃ t, exec i s = .next t ∧ Frame { chans := fun c => c = a.channel } s t ∧
      (((t.chan a.channel).state = .cueing ∧
          (t.chan a.channel).cue = some ⟨⟨kind, tag, s.port.taken⟩, (t.chan a.channel).pos⟩ ∧
          (t.chan a.channel).cueExpiry = some (s.time.house + 54000000)) ∨
        ((t.chan a.channel).state = .cued ∧ (t.chan a.channel).cue = none ∧ (t.chan a.channel).cueExpiry = none ∧
          (t.chan a.channel).flags &&& ChanFlag.cued ≠ 0 ∧
          ∃ n ≤ (if (s.chan a.channel).primePeriods = 0 then (s.chan a.channel).sustainDepth
              else (s.chan a.channel).primeDepth),
            Answered s t kind tag .ok 0 ([itemFlag false, item1 n, item4s (t.chan a.channel).pos] ++
              (if kind = 56 then [item4 0] else [])))) ∧
      (t.chan a.channel).kept = ({ s.chan a.channel with
        pos := clampPosition (s.chan a.channel).inPoint (s.chan a.channel).lastFrame a.position,
        phase := if (s.chan a.channel).primePeriods = 0 then .sustain else .prime,
        remaining := (s.chan a.channel).primePeriods, base := some s.time.house, atEdge := false } : Channel).kept ∧
      ∀ q, (s.chan a.channel).cue = some q → Answered s t q.ticket.kind q.ticket.tag .superseded 0 []) ∧
  ∀ (s : State) (tag : Nat) (a : PositionArgs), Offered s tag (.chanJump a) → a.channel < 64 →
    (s.chan a.channel).state = .running → (s.chan a.channel).clip ≠ 0 →
    (s.clip (s.chan a.channel).clip).length ≠ 0 →
    ∃ t, exec (.chanJump tag a) s = .next t ∧ Frame { chans := fun c => c = a.channel } s t ∧
      (t.chan a.channel).state = .running ∧
      (t.chan a.channel).kept = ({ s.chan a.channel with
        pos := clampPosition (s.chan a.channel).inPoint (s.chan a.channel).lastFrame a.position, edge := false,
        atEdge := false,
        phase := if (s.chan a.channel).primePeriods = 0 then .sustain else .prime,
        remaining := (s.chan a.channel).primePeriods, course := none } : Channel).kept ∧
      Answered s t 56 tag .ok 0 [item1 0, item1 0, item4s (t.chan a.channel).pos,
        item4 (s.chan a.channel).dueIndex.toNat] ∧
      ∀ q, (s.chan a.channel).course = some q → Answered s t q.ticket.kind q.ticket.tag .superseded 0 []

/-- CHAN_START: NOW, or AT_TIME with a time already reached, starts play at the present house time with the first due time a
period later; AT_TIME with a later time and AT_REFERENCE leave the start pending, the latter with a start wait; DEFAULT is
AT_REFERENCE or NOW by the align default (R55, R57, R167). That EDGE is true from the start on where the due index is at the live
edge is the model's reading of R70 (log 39). -/
def Obligations.ChanStartStartsOrWaits : Prop :=
  ∀ (s : State) (tag : Nat) (a : ChanStartArgs), Offered s tag (.chanStart a) → a.channel < 64 →
    (s.chan a.channel).state = .cueing ∨ (s.chan a.channel).state = .cued ∨ (s.chan a.channel).state = .held →
    (s.clip (s.chan a.channel).clip).length ≠ 0 → a.form ≤ 3 →
    ∃ t, exec (.chanStart tag a) s = .next t ∧ Frame { time := true, chans := fun c => c = a.channel } s t ∧
      t.time.house = s.time.house ∧ (t.chan a.channel).dueIndex = (s.chan a.channel).dueIndex ∧
      (t.chan a.channel).pos = (s.chan a.channel).pos ∧
      (∀ q, (s.chan a.channel).start = some q → Answered s t q.ticket.kind q.ticket.tag .superseded 0 []) ∧
      ((a.form = 0 ∨ (a.form = 3 ∧ (s.chan a.channel).alignDefault = false) ∨ (a.form = 1 ∧ a.time ≤ s.time.house)) →
        (t.chan a.channel).state = .running ∧ (t.chan a.channel).start = none ∧
        (t.chan a.channel).edge = (s.chan a.channel).atEdge ∧
        (t.chan a.channel).dueTime = some (s.time.house + (s.chan a.channel).period) ∧
        Answered s t 53 tag .ok 0 [itemFlag false, item4 (s.chan a.channel).dueIndex.toNat, item8 s.time.house,
          item8 (s.time.house + (s.chan a.channel).period)]) ∧
      (a.form = 1 → s.time.house < a.time →
        (t.chan a.channel).start = some ⟨.atTime a.time, ⟨53, tag, s.port.taken⟩⟩ ∧
        ((t.chan a.channel).state = .cued ∨ (t.chan a.channel).state = .held)) ∧
      ((a.form = 2 ∨ (a.form = 3 ∧ (s.chan a.channel).alignDefault = true)) →
        (t.chan a.channel).start = some ⟨.atReference, ⟨53, tag, s.port.taken⟩⟩ ∧
        tget none t.time.waits a.channel = some (s.time.house + 2 *
          (if s.time.calibrated then s.time.refPeriod.getD 0 else (s.chan a.channel).period)))

/-- The house times of a channel before it runs: CUE_EXPIRY completes the cue SHORT; START_TIME_REACHED starts play at the start
time; START_WAIT_LIMIT starts it at the present house time with no reference (R54, R56, R57, R167). The count CUE_EXPIRY answers
is that of the entries among R54's first k that have left WAITING and FILLING; that an entry cut before the due index counts
among the first k is the model's choice (log 47), and so is EDGE from the start on where the due index is at the live edge
(log 39). -/
def Obligations.ChannelTimesReached : Prop :=
  (∀ (s : State) (c e : Nat) (q : CueRequest), (s.chan c).state = .cueing → (s.chan c).cueExpiry = some e →
    e ≤ s.time.house → (s.chan c).cue = some q →
    ∃ t, exec (.cueExpiry c) s = .next t ∧ Frame { chans := fun k => k = c } s t ∧ (t.chan c).state = .cued ∧
      (t.chan c).kept = (s.chan c).kept ∧ (t.chan c).flags &&& (ChanFlag.cued ||| ChanFlag.short) = 3 ∧
      Answered s t q.ticket.kind q.ticket.tag .ok 0
        ([itemFlag true, item1 (cueLeft s (s.chan c)), item4s q.position] ++
          (if q.ticket.kind = 56 then [item4 0] else []))) ∧
  (∀ (s : State) (c time : Nat) (q : Ticket), (s.chan c).start = some ⟨.atTime time, q⟩ → time ≤ s.time.house →
    (s.clip (s.chan c).clip).length ≠ 0 →
    ∃ t, exec (.startTimeReached c) s = .next t ∧ Frame { time := true, chans := fun k => k = c } s t ∧
      (t.chan c).state = .running ∧ (t.chan c).start = none ∧ (t.chan c).dueIndex = (s.chan c).dueIndex ∧
      (t.chan c).edge = (s.chan c).atEdge ∧
      (t.chan c).dueTime = some (time + (s.chan c).period) ∧
      Answered s t q.kind q.tag .ok 0 [itemFlag false, item4 (s.chan c).dueIndex.toNat, item8 time,
        item8 (time + (s.chan c).period)]) ∧
  ∀ (s : State) (c limit : Nat) (q : Ticket), tget none s.time.waits c = some limit → limit ≤ s.time.house →
    (s.chan c).start = some ⟨.atReference, q⟩ → (s.clip (s.chan c).clip).length ≠ 0 →
    ∃ t, exec (.startWaitLimit c) s = .next t ∧ Frame { time := true, chans := fun k => k = c } s t ∧
      (t.chan c).state = .running ∧ (t.chan c).start = none ∧ tget none t.time.waits c = none ∧
      (t.chan c).edge = (s.chan c).atEdge ∧
      (t.chan c).dueTime = some (s.time.house + (s.chan c).period) ∧
      Answered s t q.kind q.tag .ok 0 [itemFlag true, item4 (s.chan c).dueIndex.toNat, item8 s.time.house,
        item8 (s.time.house + (s.chan c).period)]

/-- CHAN_HOLD makes a channel that is not IDLE HELD at its position and due index; waiting and pending requests are SUPERSEDED
(R61), a CHAN_SPEED without items (R187, log 36, DEDUCED). EDGE falls, and a due index at the live edge stays there (R77; the
model's own field `atEdge`, log 39). Where records stand for the due index or later, a REVOKE naming the due index waits or is
written with the ring's next slot and gap, a transfer in flight of those periods is void, and the last record period is the one
that stood before (R63, R101). That one is what the model's own field `priorRecord` holds, which DUE_TIME sets (log 15, DEDUCED). -/
def Obligations.ChanHoldStopsInPlace : Prop :=
  ∀ (s : State) (tag c : Nat), Offered s tag (.chanHold c) → c < 64 → (s.chan c).state ≠ .free →
    (s.chan c).state ≠ .idle →
    ∃ t, exec (.chanHold tag c) s = .next t ∧ Frame { time := true, chans := fun k => k = c } s t ∧
      (t.chan c).state = .held ∧ (t.chan c).pos = (s.chan c).pos ∧ (t.chan c).dueIndex = (s.chan c).dueIndex ∧
      (t.chan c).speed = (s.chan c).speed ∧ (t.chan c).atEdge = (s.chan c).atEdge ∧
      ((s.chan c).state ≠ .held → (t.chan c).base = some s.time.house) ∧
      ((s.chan c).state = .running → (t.chan c).dueTime = none ∧ (t.chan c).edge = false ∧ (t.chan c).course = none ∧
        ∀ q, (s.chan c).course = some q → Answered s t q.ticket.kind q.ticket.tag .superseded 0 []) ∧
      ((s.chan c).state ≠ .running →
        (∀ q, (s.chan c).start = some q →
          (t.chan c).start = none ∧ Answered s t q.ticket.kind q.ticket.tag .superseded 0 []) ∧
        ∀ q, (s.chan c).cue = some q → (t.chan c).cue = none ∧ (t.chan c).cueExpiry = none ∧
          Answered s t q.ticket.kind q.ticket.tag .superseded 0 []) ∧
      (∀ low, (s.chan c).state = .running → (s.chan c).recordFrom (s.chan c).dueIndex = true →
        (s.ring c).closing = false → (s.ring c).revoke = none → low = (s.chan c).dueTime.getD 0 % 4294967296 →
        (t.chan c).lastRecord = (s.chan c).priorRecord ∧
        ((t.ring c).revoke = some ⟨(s.chan c).dueIndex, (s.chan c).clip, low⟩ ∨
          Output.record (BitVec.ofNat 64 ((s.ring c).recordArea + 32 * (s.ring c).nextSlot))
            ⟨.revoke, .none, false, false, false, (s.chan c).clip, (s.ring c).gap, (s.chan c).dueIndex, 0, 0, low⟩ ∈
              outputsSince s t) ∧
        (AtRest t → 0 < (t.ring c).free → (t.ring c).revoke = none) ∧
        ∀ x, (s.ring c).transfer = some x → (t.ring c).transfer =
          some { x with voided := x.voided || atOrAfter x.record.period (s.chan c).dueIndex }) ∧
      Answered s t 54 tag .ok 0 [item4 (s.chan c).dueIndex.toNat, item4s (s.chan c).pos]

/-- CHAN_SPEED stores the speed clamped to −512 to +512 at once, except for an apply period later than the due index of a RUNNING
channel: then it stands as the pending course, unanswered. A course that was pending there is answered SUPERSEDED (R59, R60).
EDGE and a due index at the live edge stand, for a speed of 0 or below too, until the next due time, which is the model's reading
of R77 (log 10, DEDUCED; the model's own field `atEdge`, log 39), and so is that the SUPERSEDED CHAN_SPEED has no items (log 36,
DEDUCED). -/
def Obligations.ChanSpeedStoresOrPends : Prop :=
  ∀ (s : State) (tag : Nat) (a : ChanSpeedArgs) (v : Int), Offered s tag (.chanSpeed a) → a.channel < 64 →
    (s.chan a.channel).state ≠ .free → v = max (-512) (min 512 a.speed) →
    ∃ t, exec (.chanSpeed tag a) s = .next t ∧ Frame { chans := fun c => c = a.channel } s t ∧
      (t.chan a.channel).pos = (s.chan a.channel).pos ∧ (t.chan a.channel).dueIndex = (s.chan a.channel).dueIndex ∧
      (t.chan a.channel).edge = (s.chan a.channel).edge ∧ (t.chan a.channel).atEdge = (s.chan a.channel).atEdge ∧
      ((s.chan a.channel).state ≠ .running →
        (t.chan a.channel).speed = v ∧ Answered s t 55 tag .ok 0 [item2s v, item4 0]) ∧
      ((s.chan a.channel).state = .running →
        (∀ n, a.apply = some n → later (BitVec.ofNat 32 n) (s.chan a.channel).dueIndex = false) →
        (t.chan a.channel).speed = v ∧ (t.chan a.channel).course = none ∧
        Answered s t 55 tag .ok 0 [item2s v, item4 (s.chan a.channel).dueIndex.toNat]) ∧
      (∀ n, (s.chan a.channel).state = .running → a.apply = some n →
        later (BitVec.ofNat 32 n) (s.chan a.channel).dueIndex = true →
        (t.chan a.channel).speed = (s.chan a.channel).speed ∧
        (t.chan a.channel).course = some ⟨v, BitVec.ofNat 32 n, ⟨55, tag, s.port.taken⟩⟩) ∧
      ∀ q, (s.chan a.channel).state = .running → (s.chan a.channel).course = some q →
        Answered s t q.ticket.kind q.ticket.tag .superseded 0 []

/-- CHAN_CLOSE frees the channel with its binding, list and speed at their reset values and counts down clip and view, a
RETIRING clip freed by the unbind that brings its count to 0 (R22); a waiting cue, a pending start and a pending course are
ABORTED; the ring is dropped and the close answered at once unless a transfer is in flight, whose end it then awaits (R68).
That the ABORTED CHAN_SPEED has no items is DEDUCED (R187, log 36). -/
def Obligations.ChanCloseFreesTheChannel : Prop :=
  ∀ (s : State) (tag c : Nat), Offered s tag (.chanClose c) → c < 64 → (s.chan c).state ≠ .free →
    ∃ t, exec (.chanClose tag c) s = .next t ∧
      Frame (Touched.binding (fun k => k = c) (fun k => k = c)) s t ∧
      (t.chan c).state = .free ∧ (t.chan c).clip = 0 ∧ (t.chan c).view = none ∧ (t.chan c).pos = 0 ∧
      (t.chan c).speed = 0 ∧ (t.chan c).dueTime = none ∧ (t.chan c).start = none ∧ (t.chan c).course = none ∧
      (t.chan c).list = [] ∧
      (∀ q, (s.chan c).cue = some q → Answered s t q.ticket.kind q.ticket.tag .aborted 0 []) ∧
      (∀ q, (s.chan c).start = some q → Answered s t q.ticket.kind q.ticket.tag .aborted 0 []) ∧
      (∀ q, (s.chan c).course = some q → Answered s t q.ticket.kind q.ticket.tag .aborted 0 []) ∧
      ((s.chan c).clip ≠ 0 → (s.clip (s.chan c).clip).state = .live →
        t.clip (s.chan c).clip = { s.clip (s.chan c).clip with bindCount := (s.clip (s.chan c).clip).bindCount - 1 }) ∧
      ((s.chan c).clip ≠ 0 → (s.clip (s.chan c).clip).state = .retiring → t.clip (s.chan c).clip =
        if (s.clip (s.chan c).clip).bindCount ≤ 1 then Clip.initial
        else { s.clip (s.chan c).clip with bindCount := (s.clip (s.chan c).clip).bindCount - 1 }) ∧
      (∀ h, h ≠ (s.chan c).clip → t.clip h = s.clip h) ∧
      (∀ v, (s.chan c).view = some v → (s.chan c).clip ≠ 0 →
        (t.view v).useCount = (s.view v).useCount - 1) ∧
      ((s.ring c).transfer = none →
        (t.ring c).kept = Ring.initial ∧ (t.chan c).closeTicket = none ∧ Answered s t 57 tag .ok 0 []) ∧
      ((s.ring c).transfer.isSome = true →
        (t.ring c).closing = true ∧ (t.chan c).closeTicket = some ⟨57, tag, s.port.taken⟩)

/-- DUE_TIME: the due index moves on by one, the due time by P and the position by the course; past the end of play the channel
goes HELD with END at the last or the first frame; a pending course whose change period is reached is applied (R88, R90, R74
to R76, R60). A period with no record and a free slot gets one in the next slot: a REPEAT where its entry began earlier, the
period before was delivered and the entry is not lost, otherwise a MISS with its entry's reason; with no transfer in flight the
produce word is written one higher (R88, R94, R95, R100). With no slot free the period is counted in the gap (R100). In PRIME the
remaining count falls by one unless the store is in overload once the passed entries are released, which the available pages
they leave decide, and at 0 the phase becomes SUSTAIN (R82, R84, R90, R91, R122). EDGE is that of the period reached, and a
record carries that of its own, which the model's own field `atEdge` holds (R77, log 39). The model's own reading is in four
more points: its fields `priorRecord` and `priorShown` hold what stands before the due index, and this event sets them (log 15);
a void transfer stands for no period, but bars a REPEAT of a period later than its own, whose MISS is written (R97, log 23); a
REPEAT period whose entry is lost is settled as its MISS (log 37); grants that the releases allow come after the count (log 49).
-/
def Obligations.DueTimeMovesOn : Prop :=
  ∀ (s : State) (c d : Nat), (s.chan c).state = .running → (s.chan c).dueTime = some d → d ≤ s.time.house →
    ∃ t, exec (.dueTime c) s = .next t ∧ Frame { chans := fun k => k = c } s t ∧
      (t.chan c).dueIndex = (s.chan c).dueIndex + 1 ∧
      (∀ e, (courseOf s (s.chan c)).next (s.chan c).due = some e →
        (t.chan c).state = .running ∧ (t.chan c).dueTime = some (d + (s.chan c).period) ∧ (t.chan c).pos = e.pos ∧
        (t.chan c).edge = e.edge ∧ (t.chan c).atEdge = e.edge ∧
        (∀ q, (s.chan c).course = some q → q.change = (s.chan c).dueIndex + 1 →
          (t.chan c).speed = q.speed ∧ (t.chan c).course = none ∧
          Answered s t q.ticket.kind q.ticket.tag .ok 0 [item2s q.speed, item4 q.change.toNat]) ∧
        ((∀ q, (s.chan c).course = some q → q.change ≠ (s.chan c).dueIndex + 1) →
          (t.chan c).speed = (s.chan c).speed ∧ (t.chan c).course = (s.chan c).course)) ∧
      ((courseOf s (s.chan c)).next (s.chan c).due = none →
        (t.chan c).state = .held ∧ (t.chan c).dueTime = none ∧ (t.chan c).base = some s.time.house ∧
        (t.chan c).edge = false ∧ (t.chan c).atEdge = false ∧ (t.chan c).course = none ∧
        (t.chan c).flags &&& ChanFlag.playEnd ≠ 0 ∧
        (t.chan c).pos = (if (courseOf s (s.chan c)).speedAt (s.chan c).dueIndex > 0 then 16 * ((s.chan c).lastFrame : Int)
          else 16 * ((s.chan c).inPoint : Int))) ∧
      (∀ u, u = releasePassed s c →
        ((∀ e ∈ (s.chan c).list, e.endsBefore ((s.chan c).dueIndex + 1) = true → e.ref = none) →
          u.store.overload = s.store.overload) ∧
        ((∃ e ∈ (s.chan c).list, e.endsBefore ((s.chan c).dueIndex + 1) = true ∧ e.ref ≠ none) → OverloadHeld u) ∧
        (t.chan c).remaining = (if (s.chan c).phase = .prime ∧ u.store.overload = false then (s.chan c).remaining - 1
          else (s.chan c).remaining) ∧
        (t.chan c).phase = (if (s.chan c).phase = .prime ∧ u.store.overload = false ∧ (s.chan c).remaining ≤ 1 then .sustain
          else (s.chan c).phase)) ∧
      ((s.chan c).recordFrom (s.chan c).dueIndex = true → (t.chan c).missing = (s.chan c).missing ∧
        (t.chan c).priorRecord = some (s.chan c).dueIndex ∧ (t.chan c).priorShown = true) ∧
      ((s.chan c).recordFrom (s.chan c).dueIndex = false → (s.ring c).free = 0 → (t.chan c).missing = true ∧
        (t.chan c).priorRecord = (s.chan c).priorRecord ∧ (t.chan c).priorShown = false ∧
        (t.ring c).gap = min 65535 ((s.ring c).gap + 1)) ∧
      ∀ last, (s.chan c).recordFrom (s.chan c).dueIndex = false → 0 < (s.ring c).free →
        last = ((courseOf s (s.chan c)).next (s.chan c).due).isNone →
        (∀ e, (s.chan c).entryAt (s.chan c).dueIndex = some e → e.beginsBefore (s.chan c).dueIndex = true →
          (s.chan c).priorShown = true →
          (∀ x, (s.ring c).transfer = some x → later (s.chan c).dueIndex x.record.period = false) →
          e.status.lost = false →
          (t.chan c).missing = (s.chan c).missing ∧ (t.chan c).priorRecord = some (s.chan c).dueIndex ∧
          (t.chan c).priorShown = true ∧
          Output.record (BitVec.ofNat 64 ((s.ring c).recordArea + 32 * (s.ring c).nextSlot))
            ⟨.again, .none, last, (s.chan c).atEdge, shortOf s e, (s.chan c).clip, (s.ring c).gap, (s.chan c).dueIndex,
              frameOf (s.chan c).pos, 0, d % 4294967296⟩ ∈ outputsSince s t) ∧
        ((∀ e, (s.chan c).entryAt (s.chan c).dueIndex = some e → e.beginsBefore (s.chan c).dueIndex = false ∨
            (s.chan c).priorShown = false ∨
            (∃ x, (s.ring c).transfer = some x ∧ later (s.chan c).dueIndex x.record.period = true) ∨
            e.status.lost = true) →
          (t.chan c).missing = true ∧ (t.chan c).priorRecord = some (s.chan c).dueIndex ∧
          (t.chan c).priorShown = false ∧
          ∃ reason, ((s.chan c).entryAt (s.chan c).dueIndex = none → reason = .notReady) ∧
            (∀ e, (s.chan c).entryAt (s.chan c).dueIndex = some e → reason = match e.status with
              | .absent => .absent
              | .oversize => .oversize
              | .failed f => .failed f
              | _ => .notReady) ∧
            Output.record (BitVec.ofNat 64 ((s.ring c).recordArea + 32 * (s.ring c).nextSlot))
              ⟨.miss, reason, last, (s.chan c).atEdge, false, (s.chan c).clip, (s.ring c).gap, (s.chan c).dueIndex,
                frameOf (s.chan c).pos, 0, d % 4294967296⟩ ∈ outputsSince s t) ∧
        ((s.ring c).transfer = none → Output.produceWord
          (BitVec.ofNat 64 ((s.ring c).recordArea + 32 * (s.ring c).slotCount)) ((s.ring c).produce + 1) ∈ outputsSince s t)

/-- The period after a period under a course, case by case: the live edge holds a forward-moving following channel of a growing
clip at 16L when the candidate lies beyond the range, or the period before was at the edge at 16L (R77); otherwise a candidate
within the range stands (R74), one outside it wraps by whole loop lengths into it where the loop is set (R75) and ends play
where it is clear (R76). The speed in force is the pending one from its change period on (R60, R74). And every step keeps the
ninth law: the position of a CUEING, CUED, RUNNING or HELD channel lies in 16I to 16L + 15 (R47), EDGE holds on just the RUNNING
channels at the live edge (R70), and those stand at 16L and follow (R77; the model's own field `atEdge`, log 39). -/
def Obligations.PositionsStayInRange : Prop :=
  (∀ (k : Course) (x : Cursor) (v low high : Int), k.inPoint ≤ k.lastFrame → low = 16 * k.inPoint →
    high = 16 * k.lastFrame + 15 → v = k.speedAt x.period →
    (k.pending = none → v = k.speed) ∧
    (∀ w c, k.pending = some (w, c) → v = if x.period = c ∨ later x.period c then w else k.speed) ∧
    (k.holds = true → 0 < v → high < x.pos + v ∨ (x.edge = true ∧ x.pos = 16 * k.lastFrame) →
      k.next x = some ⟨x.period + 1, 16 * k.lastFrame, true⟩) ∧
    (¬(k.holds = true ∧ 0 < v ∧ (high < x.pos + v ∨ (x.edge = true ∧ x.pos = 16 * k.lastFrame))) →
      (low ≤ x.pos + v → x.pos + v ≤ high → k.next x = some ⟨x.period + 1, x.pos + v, false⟩) ∧
      (x.pos + v < low ∨ high < x.pos + v → k.loop = true →
        ∃ y z : Int, k.next x = some ⟨x.period + 1, y, false⟩ ∧ low ≤ y ∧ y ≤ high ∧
          y = x.pos + v + z * (16 * ((k.lastFrame : Int) - k.inPoint + 1))) ∧
      (x.pos + v < low ∨ high < x.pos + v → k.loop = false → k.next x = none))) ∧
  ∀ s t : State, PositionsHeld s → step s = .next t → PositionsHeld t

/-! ## Delivery -/

/-- SLOT_RETURN gives back the given number of slots, at most those the host holds, and reports that number and the free count
(R102). -/
def Obligations.SlotReturnFreesSlots : Prop :=
  ∀ (s : State) (tag : Nat) (a : SlotReturnArgs) (n : Nat), Offered s tag (.slotReturn a) → a.channel < 64 →
    (s.chan a.channel).state ≠ .free → n = min a.count (s.ring a.channel).hostHeld →
    ∃ t, exec (.slotReturn tag a) s = .next t ∧ Frame { rings := fun c => c = a.channel } s t ∧
      (t.ring a.channel).kept =
        { (s.ring a.channel).kept with returned := (s.ring a.channel).returned + BitVec.ofNat 32 n } ∧
      Answered s t 64 tag .ok 0 [item1 n, item1
        ((s.ring a.channel).slotCount - ((s.ring a.channel).hostHeld - n) - (s.ring a.channel).taken)]

/-- TRANSFER_END: the frame's bytes go to the slot's buffer. That they appear as one output in this event is the model's choice
(log 8, DESIGN CHOICE): by R98 they are copied from the transfer's begin on, and R99 gives the event of the last byte alone. On a
channel that is open its record is written, every taken slot is published, the produce word written for each, and MISSING becomes
false; on a closing one no record is written, the ring is dropped and the close answered (R94, R99, R103). The transfer's hold on
its READY entry is released (`HoldReleased`: R99, R107, R113, R124; the counters in it are the model's own, log 19), and a channel
that is not RUNNING begins no other transfer (R97). The end of the last transfer a SERVICE_CLEAR waits for answers it (R104,
R183). -/
def Obligations.TransferEndWritesTheRecord : Prop :=
  ∀ (s : State) (c : Nat) (x : Transfer), (s.ring c).transfer = some x →
    ∃ t, exec (.transferEnd c) s = .next t ∧
      Frame { chans := fun k => k = c, rings := fun k => k = c } s t ∧
      Output.frameData (BitVec.ofNat 64 ((s.ring c).base + x.slot * (s.ring c).slotBytes)) (copiedBytes s x) ∈
        outputsSince s t ∧
      ((s.chan c).state ≠ .running → (t.ring c).transfer = none) ∧
      (TablesHeld s → ∀ e, s.entry x.entry = some e → e.state = .ready → 0 < e.transfers → s.context x.entry = none →
        HoldReleased s t x.entry e) ∧
      ((s.ring c).closing = false →
        Output.record (BitVec.ofNat 64 ((s.ring c).recordArea + 32 * x.slot)) x.record ∈ outputsSince s t ∧
        (∀ i, 1 ≤ i → i ≤ (s.ring c).taken → Output.produceWord
          (BitVec.ofNat 64 ((s.ring c).recordArea + 32 * (s.ring c).slotCount))
          ((s.ring c).produce + BitVec.ofNat 32 i) ∈ outputsSince s t) ∧
        (t.chan c).kept = ({ s.chan c with missing := false } : Channel).kept ∧
        (t.ring c).kept = (s.ring c).kept) ∧
      ((s.ring c).closing = true →
        (t.ring c).kept = Ring.initial ∧ (t.chan c).closeTicket = none ∧
        (∀ q, (s.chan c).closeTicket = some q → Answered s t q.kind q.tag .ok 0 []) ∧
        ((∃ k, k ≠ c ∧ (s.ring k).transfer.isSome = true) → t.port.clearWait = s.port.clearWait) ∧
        ∀ w, s.port.clearWait = some w → twf Ring.initial s.rings = true →
          (∀ k, k ≠ c → (s.ring k).transfer = none) → t.port.clearWait = none ∧
            Answered s t w.ticket.kind w.ticket.tag .ok 0 [item1 w.opened, item1 w.transfers, item2 w.aborted])

/-! ## The Frame Store -/

/-- PIN_SET takes the lowest FREE pin, which becomes FULL over the given range, covers each of its PRESENT frames, and claims the
view; under the second law its answer's total is the one before with the page need added (R118, R119). PIN_DROP frees a pin and
releases its view (R121). -/
def Obligations.PinsSetAndDropped : Prop :=
  (∀ (s : State) (tag : Nat) (a : PinSetArgs) (p : Nat), Offered s tag (.pinSet a) → 1 ≤ a.clip → a.clip ≤ 4095 →
    (s.clip a.clip).state = .live → 1 ≤ a.count → a.count ≤ 4096 → a.first + a.count ≤ 1048576 → p < 32 →
    (s.pin p).state = .free → (∀ k < p, (s.pin k).state ≠ .free) → viewDefined s a.view = true →
    pinnedPages s + addedPages s a ≤ 131072 →
    pinnedEntries s + (newWants s a.clip a.view a.first a.count).length ≤ 32768 →
    ∃ t, exec (.pinSet tag a) s = .next t ∧ Frame { pins := true, views := true } s t ∧
      (t.pin p).state = .full ∧ (t.pin p).clip = a.clip ∧ (t.pin p).view = a.view ∧ (t.pin p).first = a.first ∧
      (t.pin p).count = a.count ∧ (t.pin p).held = a.count ∧ (∀ k, k ≠ p → t.pin k = s.pin k) ∧
      (∀ v, t.view v = if v = a.view then { s.view v with useCount := (s.view v).useCount + 1 } else s.view v) ∧
      (∀ f, (∃ id, (f, id) ∈ (t.pin p).covered) ↔
        a.first ≤ f ∧ f < a.first + a.count ∧ ∃ n x b z, lookup s a.clip f = .present n x b z) ∧
      ∃ total, (TablesHeld s → SerialsHeld s → total = pinnedPages s + addedPages s a) ∧
        Answered s t 80 tag .ok 0
          [item1 p, item2 (t.pin p).covered.length, item4 (addedPages s a), item4 total]) ∧
  ∀ (s : State) (tag p : Nat), Offered s tag (.pinDrop p) → p < 32 → (s.pin p).state ≠ .free →
    ∃ t, exec (.pinDrop tag p) s = .next t ∧ Frame { pins := true, views := true } s t ∧ t.pin p = Pin.initial ∧
      (∀ k, k ≠ p → t.pin k = s.pin k) ∧
      (∀ v, t.view v =
        if v = (s.pin p).view then { s.view v with useCount := (s.view v).useCount - 1 } else s.view v) ∧
      Answered s t 81 tag .ok 0 [item1 (s.pin p).state.code, item2 (s.pin p).covered.length]

/-! ## Media links, volumes, members -/

/-- A read under a BUSY tag ends: OK sets the failure count to 0, any other end raises it, to 3 at most; the third in a row,
and an expiry that leaves all 8 tags QUARANTINED, fails an ONLINE or DRAINING member and a waiting hold with it; the end of a
DRAINING member's last read makes it HELD and answers its hold OK with its counts. A DONE frees its tag, which a waiting read
may take at once; an expiry leaves it QUARANTINED; a DONE under a FREE tag, or with a bad header, is discarded (R142 to R146,
R149, R151). That a DONE frees a tag QUARANTINED by a link down too is the model's choice (R144 against R147: log 41). The
data of an OK read that serves a standing fill goes to its entry's pages as its piece's extracts place it, XORed where earlier
reads of its set are in place (R132); that every other byte of store memory stands, in a page that is free or newly taken too, is
the model's choice (log 7). The OK end of an entry's last piece makes it
READY (R112, R132). -/
def Obligations.ReadEndsCounted : Prop :=
  (∀ (s : State) (l : Nat) (d : DoneMsg), d.headerGood = false → exec (.doneReceived l d) s = .next s) ∧
  (∀ (s : State) (l : Nat) (d : DoneMsg) (e : Nat) (cls : Machine.Class) (f : Nat) (ok : Bool), d.headerGood = true →
    s.tag l d.tag = .busy e cls → ok = (d.ok && d.dataGood && d.data.length == wantedBytes s l d.tag) →
    f = (if ok then 0 else min 3 ((s.link l).failures + 1)) →
    ∃ t, exec (.doneReceived l d) s = .next t ∧ Frame { links := fun m => m = l } s t ∧
      (t.link l).failures = f ∧ (t.link l).up = (s.link l).up ∧
      (t.tag l d.tag = .free ∨ ∃ c, t.tag l d.tag = .busy (s.time.house + 10800000) c) ∧
      (((s.link l).member = .online ∨ (s.link l).member = .draining) → f = 3 →
        (t.link l).member = .failed ∧ t.port.flags &&& PartFlag.member ≠ 0 ∧
        ∀ q, (s.link l).hold = some q → (t.link l).hold = none ∧ Answered s t q.kind q.tag .failed 0 []) ∧
      (∀ q, (s.link l).member = .draining → f ≠ 3 → d.tag < 8 →
        (∀ k < 8, k ≠ d.tag → (s.tag l k).isBusy = false) → (s.link l).hold = some q →
        (t.link l).member = .held ∧ (t.link l).hold = none ∧ t.port.flags &&& PartFlag.member ≠ 0 ∧
        Answered s t q.kind q.tag .ok 0 [item2 ((s.link l).drainOk + if ok then 1 else 0),
          item2 ((s.link l).drainFailed + if ok then 0 else 1)]) ∧
      (∀ r c q x xored, ok = true → issuedRead s l d.tag = some r → r.detached = false →
        s.context r.context = some c → c.abandoned = false → c.pieces[r.piece]? = some q → s.entry r.context = some x →
        (xored = true ↔ ∃ n, q.status = .set n true) →
        t.store.memory = applyExtracts x xored d.data q.piece.extracts s.store.memory ∧
        (∀ a, (∀ y ∈ q.piece.extracts, ∀ i < y.length, a ≠ byteAddress x (y.delivered + i)) →
          readByte t.store.memory a = readByte s.store.memory a) ∧
        (q.status = .direct ∨ (∃ b, q.status = .set 1 b) → x.outstanding = 1 → 0 < x.refs →
          twf none s.store.entries = true →
          ∃ y, t.entry r.context = some y ∧ y.state = .ready ∧ y.pages = x.pages ∧ x.refs ≤ y.refs)) ∧
      (ok = false ∨ (∀ r c q x, issuedRead s l d.tag = some r → r.detached = false → s.context r.context = some c →
          c.abandoned = false → c.pieces[r.piece]? = some q → s.entry r.context ≠ some x) →
        t.store.memory = s.store.memory)) ∧
  (∀ (s : State) (l : Nat) (d : DoneMsg), d.headerGood = true → s.tag l d.tag = .free →
    ∃ t, exec (.doneReceived l d) s = .next t ∧ Frame {} s t ∧ t.store.memory = s.store.memory) ∧
  (∀ (s : State) (l : Nat) (d : DoneMsg), d.headerGood = true → s.tag l d.tag = .quarantined →
    ∃ t, exec (.doneReceived l d) s = .next t ∧ Frame { links := fun m => m = l } s t ∧
      t.store.memory = s.store.memory ∧ (t.link l).kept = (s.link l).kept ∧
      (t.tag l d.tag = .free ∨ ∃ c, t.tag l d.tag = .busy (s.time.house + 10800000) c)) ∧
  ∀ (s : State) (l k e : Nat) (cls : Machine.Class), s.tag l k = .busy e cls → e ≤ s.time.house →
    ∃ t, exec (.tagExpiry l k) s = .next t ∧ Frame { links := fun m => m = l } s t ∧
      t.tag l k = .quarantined ∧ (t.link l).failures = min 3 ((s.link l).failures + 1) ∧
      t.store.memory = s.store.memory ∧
      (((s.link l).member = .online ∨ (s.link l).member = .draining) →
        2 ≤ (s.link l).failures ∨ (k < 8 ∧ ∀ j < 8, j ≠ k → s.tag l j = .quarantined) →
        (t.link l).member = .failed ∧ t.port.flags &&& PartFlag.member ≠ 0 ∧
        ∀ q, (s.link l).hold = some q → (t.link l).hold = none ∧ Answered s t q.kind q.tag .failed 0 []) ∧
      ∀ q, (s.link l).member = .draining → (s.link l).failures < 2 → k < 8 →
        (∀ j < 8, j ≠ k → (s.tag l j).isBusy = false) → (∃ j < 8, j ≠ k ∧ s.tag l j ≠ .quarantined) →
        (s.link l).hold = some q →
        (t.link l).member = .held ∧ (t.link l).hold = none ∧ t.port.flags &&& PartFlag.member ≠ 0 ∧
        Answered s t q.kind q.tag .ok 0 [item2 (s.link l).drainOk, item2 ((s.link l).drainFailed + 1)]

/-- LINK_DOWN: the link is DOWN, its BUSY tags QUARANTINED, an ONLINE, DRAINING or HELD member FAILED, a waiting return answered.
LINK_UP sends RESET until a RESET_DONE has been taken. The first RESET_DONE makes the link UP; a later one ends a waiting
return with the member ONLINE. RETURN_EXPIRY ends a waiting return (R147, R149, R154, R160). -/
def Obligations.LinkEventsActOnTheirMember : Prop :=
  (∀ (s : State) (m : Nat), ∃ t, exec (.linkDown m) s = .next t ∧ Frame { links := fun k => k = m } s t ∧
    (t.link m).up = false ∧ (t.link m).ret = none ∧
    (∀ k e cls, k < 8 → s.tag m k = .busy e cls → t.tag m k = .quarantined) ∧
    (t.link m).member = (if (s.link m).member = .online ∨ (s.link m).member = .draining ∨ (s.link m).member = .held
      then .failed else (s.link m).member) ∧
    (∀ q e, (s.link m).ret = some (q, e) → Answered s t q.kind q.tag .badState 0 [item1 0, item1 1])) ∧
  (∀ (s : State) (m : Nat), ∃ t, exec (.linkUp m) s = .next t ∧ Frame { links := fun k => k = m } s t ∧
    ((s.link m).resetSeen = true → (t.link m).kept = ({ s.link m with up := true } : Link).kept) ∧
    ((s.link m).resetSeen = false → LinkStands s t m ∧ Output.sendReset m ∈ outputsSince s t)) ∧
  (∀ (s : State) (m : Nat), (s.link m).resetSeen = false →
    ∃ t, exec (.resetDone m) s = .next t ∧ Frame { links := fun k => k = m } s t ∧
      (t.link m).kept = ({ s.link m with up := true, resetSeen := true } : Link).kept) ∧
  (∀ (s : State) (m : Nat) (q : Ticket) (e : Nat), (s.link m).resetSeen = true → (s.link m).ret = some (q, e) →
    ∃ t, exec (.resetDone m) s = .next t ∧ Frame { links := fun k => k = m } s t ∧
      (t.link m).member = .online ∧ (t.link m).failures = 0 ∧ (t.link m).ret = none ∧
      (∀ k, t.tag m k ≠ .quarantined) ∧
      Answered s t q.kind q.tag .ok 0 [item1 ((s.link m).countTags (· == .quarantined)), item1 0]) ∧
  ∀ (s : State) (m : Nat) (q : Ticket) (e : Nat), (s.link m).ret = some (q, e) → e ≤ s.time.house →
    ∃ t, exec (.returnExpiry m) s = .next t ∧ Frame { links := fun k => k = m } s t ∧
      (t.link m).kept = ({ s.link m with ret := none } : Link).kept ∧
      Answered s t q.kind q.tag .badState 0 [item1 0, item1 2]

/-- VOLUME_DEFINE writes the volume's record with its capacity and makes each listed member ONLINE or, its link down or all its
tags QUARANTINED, FAILED, failure count 0; VOLUME_DISSOLVE undefines the volume and makes its members UNUSED (R157 to R159). -/
def Obligations.VolumesDefinedAndDissolved : Prop :=
  (∀ (s : State) (tag : Nat) (a : VolumeDefineArgs), Offered s tag (.volumeDefine a) → a.volume < 8 → 2 ≤ a.width →
    a.width ≤ 16 → a.members.length = a.width → (∀ m ∈ a.members, m < 16) → a.members.Nodup →
    a.unit ∈ [16, 32, 64, 128, 256] → a.parity = false ∨ 3 ≤ a.width → a.unit ≤ a.memberLength →
    a.base + a.memberLength ≤ 1099511627776 → (s.volume a.volume).clipCount = 0 →
    (∀ m ∈ a.members, (s.link m).member = .unused ∨ (s.link m).volume = some a.volume) →
    ((s.volume a.volume).defined = true → ∀ m ∈ (s.volume a.volume).members, memberBusy s m = false) →
    ∃ t, exec (.volumeDefine tag a) s = .next t ∧
      Frame { volumes := true, links := fun m => m ∈ a.members ∨ m ∈ (s.volume a.volume).members } s t ∧
      t.volume a.volume = ⟨true, a.members, a.parity, a.unit, a.base, a.memberLength, a.memberLength / a.unit,
        a.unit * (a.memberLength / a.unit) * (if a.parity then a.width - 1 else a.width), 0⟩ ∧
      (∀ v, v ≠ a.volume → t.volume v = s.volume v) ∧
      (∀ m i, a.members[i]? = some m →
        (t.link m).volume = some a.volume ∧ (t.link m).index = some i ∧ (t.link m).failures = 0 ∧
        (t.link m).up = (s.link m).up ∧
        ((s.link m).up = true → (∃ k < 8, s.tag m k ≠ .quarantined) → (t.link m).member = .online) ∧
        ((s.link m).up = false ∨ (∀ k < 8, s.tag m k = .quarantined) → (t.link m).member = .failed)) ∧
      (∀ m ∈ (s.volume a.volume).members, (s.volume a.volume).defined = true → m ∉ a.members →
        (t.link m).member = .unused ∧ (t.link m).volume = none ∧ (t.link m).index = none) ∧
      Answered s t 96 tag .ok 0 [itemFlag (s.volume a.volume).defined,
        item1 (a.members.filter (fun m => (t.link m).member == .failed)).length, item8 (t.volume a.volume).capacity]) ∧
  ∀ (s : State) (tag v : Nat), Offered s tag (.volumeDissolve v) → v < 8 → (s.volume v).defined = true →
    (s.volume v).clipCount = 0 → (∀ m ∈ (s.volume v).members, memberBusy s m = false) →
    ∃ t, exec (.volumeDissolve tag v) s = .next t ∧
      Frame { volumes := true, links := fun m => m ∈ (s.volume v).members } s t ∧ t.volume v = Volume.initial ∧
      (∀ w, w ≠ v → t.volume w = s.volume w) ∧
      (∀ m ∈ (s.volume v).members, (t.link m).member = .unused ∧ (t.link m).volume = none ∧ (t.link m).index = none ∧
        (t.link m).failures = (s.link m).failures) ∧
      Answered s t 97 tag .ok 0 [item1 (s.volume v).members.length]

/-- MEMBER_HOLD of an ONLINE member of a parity volume whose other members are ONLINE makes it HELD with no tag BUSY, else
DRAINING with the hold waiting; without parity it is REFUSED. MEMBER_RELEASE makes a DRAINING or HELD member ONLINE and
supersedes the waiting hold (R150, R152). -/
def Obligations.MembersHeldAndReleased : Prop :=
  (∀ (s : State) (tag m v : Nat), Offered s tag (.memberHold m) → m < 16 → (s.link m).member = .online →
    (s.link m).volume = some v →
    ∃ t, exec (.memberHold tag m) s = .next t ∧ Frame { links := fun k => k = m } s t ∧
      ((s.volume v).parity = true → (∀ k ∈ (s.volume v).members, k = m ∨ (s.link k).member = .online) →
        (∀ k < 8, (s.tag m k).isBusy = false) →
        (t.link m).member = .held ∧ Answered s t 98 tag .ok 0 [item2 0, item2 0] ∧
          t.port.flags &&& PartFlag.member ≠ 0) ∧
      ((s.volume v).parity = true → (∀ k ∈ (s.volume v).members, k = m ∨ (s.link k).member = .online) →
        (∃ k < 8, (s.tag m k).isBusy = true) →
        (t.link m).member = .draining ∧ (t.link m).hold = some ⟨98, tag, s.port.taken⟩ ∧ (t.link m).drainOk = 0 ∧
          (t.link m).drainFailed = 0 ∧ t.port.flags &&& PartFlag.member ≠ 0) ∧
      ((s.volume v).parity = false ∨ (∃ k ∈ (s.volume v).members, k ≠ m ∧ (s.link k).member ≠ .online) →
        LinkStands s t m ∧ Answered s t 98 tag .refused 0 [])) ∧
  ∀ (s : State) (tag m : Nat), Offered s tag (.memberRelease m) → m < 16 →
    (s.link m).member = .draining ∨ (s.link m).member = .held →
    ∃ t, exec (.memberRelease tag m) s = .next t ∧ Frame { links := fun k => k = m } s t ∧
      (t.link m).kept = ({ s.link m with member := .online, hold := none } : Link).kept ∧
      (∀ q, (s.link m).hold = some q → Answered s t q.kind q.tag .superseded 0 []) ∧
      Answered s t 99 tag .ok 0 [item1 (s.link m).member.code] ∧ t.port.flags &&& PartFlag.member ≠ 0

/-- MEMBER_RETURN of a FAILED member whose link is UP, with no return waiting, sends RESET and waits 27,000,000 ticks; otherwise
BAD_HANDLE or BAD_STATE, and nothing changes (R153). -/
def Obligations.MemberReturnSendsReset : Prop :=
  ∀ (s : State) (tag m : Nat), Offered s tag (.memberReturn m) →
    ∃ t, exec (.memberReturn tag m) s = .next t ∧ Frame { links := fun k => k = m } s t ∧
      ((16 ≤ m ∨ (s.link m).member = .unused) → LinkStands s t m ∧ Answered s t 100 tag .badHandle 0 []) ∧
      (m < 16 → (s.link m).member ≠ .unused →
        (s.link m).member ≠ .failed ∨ (s.link m).ret ≠ none ∨ (s.link m).up = false →
        LinkStands s t m ∧ Answered s t 100 tag .badState 0 [item1 0, item1 3]) ∧
      (m < 16 → (s.link m).member = .failed → (s.link m).ret = none → (s.link m).up = true →
        Output.sendReset m ∈ outputsSince s t ∧
        (t.link m).kept =
          ({ s.link m with ret := some (⟨100, tag, s.port.taken⟩, s.time.house + 27000000) } : Link).kept ∧
        (t.link m).member = .failed ∧
        ∀ k sector count, Output.sendRead m k sector count ∉ outputsSince s t)

/-- MEMBER_ASK reports a member in any state and changes nothing (R155): from a quiet state every block stands exactly. -/
def Obligations.MemberAskReportsTheMember : Prop :=
  ∀ (s : State) (tag m : Nat), Offered s tag (.memberAsk m) →
    ∃ t, exec (.memberAsk tag m) s = .next t ∧ Frame {} s t ∧ (Quiet s → OnlyAnswered s t) ∧
      (16 ≤ m → Answered s t 101 tag .badHandle 0 []) ∧
      (m < 16 → Answered s t 101 tag .ok 0
        [item1 (s.link m).member.code, itemFlag (s.link m).up, item1 ((s.link m).volume.getD 255),
          item1 ((s.link m).index.getD 255), item1 ((List.range 8).countP (fun k => s.tag m k == .free)),
          item1 ((List.range 8).countP (fun k => (s.tag m k).isBusy)),
          item1 ((List.range 8).countP (fun k => s.tag m k == .quarantined)),
          item1 ((List.range 8).countP (fun k => (s.tag m k).isBusyPin)), item1 (s.link m).failures,
          itemFlag (s.link m).hold.isSome, itemFlag (s.link m).ret.isSome])

/-! ## Time -/

/-- LOCAL_CYCLE adds E to the accumulator; each whole M in it is a tick of house time; nothing else moves but a measurement's
cycle count (R161, R164). REF_PULSE stamps the last pulse time, clears REF_LOST while the monitor is on, starts a measurement's
count and fires every start wait; a pulse shorter than four cycles is not taken (R162, R164, R167, R191). EDGE from such a start
on, where the due index is at the live edge, is the model's reading of R70 (log 39). -/
def Obligations.CyclesAndPulses : Prop :=
  (∀ s : State, ∃ t, exec .localCycle s = .next t ∧
    t = { s with time := { s.time with
      accumulator := (s.time.accumulator + s.time.ticks) % s.time.cycles,
      house := (s.time.house + (s.time.accumulator + s.time.ticks) / s.time.cycles) % 18446744073709551616,
      measure := if s.time.measure.state = .counting
        then { s.time.measure with cycles := s.time.measure.cycles + 1 } else s.time.measure } }) ∧
  (∀ (s : State) (n : Nat), n < 4 → exec (.refPulse n) s = .next s) ∧
  ∀ (s : State) (n : Nat), 4 ≤ n → twf none s.time.waits = true →
    ∃ t, exec (.refPulse n) s = .next t ∧
      Frame { time := true, draws := true, chans := fun c => tget none s.time.waits c ≠ none } s t ∧
      t.time.house = s.time.house ∧ t.time.lastPulse = some s.time.house ∧
      (s.time.monitor = true → t.time.refLost = false) ∧
      (s.time.measure.state = .armed → t.time.measure = { s.time.measure with
        state := .counting, pulses := 0, cycles := 0, limit := s.time.house + 2 * s.time.measure.period }) ∧
      (s.time.measure.state = .counting → s.time.measure.pulses < 7 → t.time.measure = { s.time.measure with
        pulses := s.time.measure.pulses + 1, limit := s.time.house + 2 * s.time.measure.period }) ∧
      ∀ c q, tget none s.time.waits c ≠ none → (s.chan c).start = some ⟨.atReference, q⟩ →
        (s.clip (s.chan c).clip).length ≠ 0 →
        (t.chan c).state = .running ∧ (t.chan c).dueTime = some (s.time.house + (s.chan c).period) ∧
        tget none t.time.waits c = none ∧ (t.chan c).edge = (s.chan c).atEdge ∧
        Answered s t q.kind q.tag .ok 0 [itemFlag false, item4 (s.chan c).dueIndex.toNat, item8 s.time.house,
          item8 (s.time.house + (s.chan c).period)]

/-- CALIBRATE arms a measurement; the pulse that ends its eighth interval judges it: within 250 ppm the ratio becomes E to M and
the monitor is on, otherwise the ratio stands and the answer is CAL_RANGE. CAL_LIMIT ends a measurement with NO_REF, its
item M a free value (log 9). REF_LOST_TIMEOUT makes REF_LOST true (R163 to R166). That period, counts and limit of the measurement
so ended are 0 is the model's choice (log 54, DESIGN CHOICE). -/
def Obligations.CalibrationsMeasured : Prop :=
  (∀ (s : State) (tag p : Nat), Offered s tag (.calibrate p) → s.time.measure.state = .idle → 27000 ≤ p → p ≤ 27000000 →
    ∃ t, exec (.calibrate tag p) s = .next t ∧ Frame { time := true } s t ∧ t.time = { s.time with
      measure := ⟨.armed, some ⟨112, tag, s.port.taken⟩, p, 0, 0, s.time.house + 2 * p⟩ }) ∧
  (∀ (s : State) (n e m : Nat) (q : Ticket), 4 ≤ n → s.time.measure.state = .counting → s.time.measure.pulses = 7 →
    s.time.measure.ticket = some q → e = 8 * s.time.measure.period → m = s.time.measure.cycles →
    ∃ t, exec (.refPulse n) s = .next t ∧ t.time.measure = Measurement.initial ∧
      (((m : Int) - e).natAbs * 4000 ≤ e →
        t.time.ticks = e ∧ t.time.cycles = m ∧ t.time.accumulator = 0 ∧ t.time.calibrated = true ∧
        t.time.refPeriod = some s.time.measure.period ∧ t.time.monitor = true ∧ t.time.figure = figureOf e m ∧
        Answered s t q.kind q.tag .ok 0 [item1 8, item4s (figureOf e m), item4 m]) ∧
      (¬((m : Int) - e).natAbs * 4000 ≤ e →
        t.time.ticks = s.time.ticks ∧ t.time.cycles = s.time.cycles ∧ t.time.calibrated = s.time.calibrated ∧
        Answered s t q.kind q.tag .calRange 0 [item1 8, item4s (figureOf e m), item4 m])) ∧
  (∀ (s : State) (q : Ticket), s.time.measure.state ≠ .idle → s.time.measure.limit ≤ s.time.house →
    s.time.measure.ticket = some q →
    ∃ t, exec .calLimit s = .next t ∧ Frame { time := true, draws := true } s t ∧
      t.time = { s.time with measure := Measurement.initial } ∧
      ∃ m, Answered s t q.kind q.tag .noRef 0 [item1 s.time.measure.pulses, item4s 0, item4 m]) ∧
  ∀ (s : State) (p r : Nat), s.time.monitor = true → s.time.lastPulse = some p → s.time.refPeriod = some r →
    p + 2 * r < s.time.house →
    ∃ t, exec .refLostTimeout s = .next t ∧ Frame { time := true } s t ∧ t.time = { s.time with refLost := true } ∧
      (s.time.refLost = false → s.port.refLostMode ≠ .leave → t.port.flags &&& PartFlag.refLost ≠ 0)
end

