-- ==== Sys2Proof/Laws/Course.lean ====
section
/-! SUPPORT. A course that loops one frame: each step, and that 16 steps at one speed bring a position back, which
`Course.rounds` rests on (R75, log 25). -/

namespace Sys2Proof.Machine

@[simp] theorem Course.rounds_pos (k : Course) (d : Cursor) (stop : Word32) : (k.rounds d stop).pos = d.pos := by
  unfold Course.rounds; split <;> rfl

@[simp] theorem Course.rounds_edge (k : Course) (d : Cursor) (stop : Word32) : (k.rounds d stop).edge = d.edge := by
  unfold Course.rounds; split <;> rfl

/-- A step in a loop of one frame, away from the live edge, wraps modulo 16 (R75). -/
theorem Course.oneFrame_next {k : Course} {c : Cursor} (h : k.oneFrame = true) (e : k.edgeNext c = false) :
    k.next c = some ⟨c.period + 1, k.low + (c.pos - k.low + k.speedAt c.period) % 16, false⟩ := by
  simp only [Course.oneFrame, Bool.and_eq_true, beq_iff_eq] at h
  have m : ∀ x : Int, modFloor x (16 * ((k.lastFrame : Int) - k.lastFrame + 1)) = x % 16 := fun x => by
    rw [sub_self, zero_add, mul_one, modFloor, Int.fmod_eq_emod_of_nonneg x (by decide)]
  simp only [Course.next, e, h.1, Course.wrap, Course.loopLength, Course.low, Course.high, h.2, m, if_true,
    Bool.false_eq_true, if_false]
  split <;> simp only [Option.some.injEq, Cursor.mk.injEq, true_and, and_true] <;> omega

/-- Sixteen such steps at one speed bring every position of the frame back. -/
theorem Course.oneFrame_round (p low v : Int) (h0 : low ≤ p) (h1 : p < low + 16) : low + (p - low + 16 * v) % 16 = p := by
  omega

/-- So many such steps at one speed move the position by so many times the speed, modulo 16. -/
theorem Course.oneFrame_steps (low v : Int) (p : Nat → Int) (h0 : low ≤ p 0) (h1 : p 0 < low + 16)
    (h : ∀ j, p (j + 1) = low + (p j - low + v) % 16) : ∀ j, p j = low + (p 0 - low + j * v) % 16
  | 0 => by simp; omega
  | j + 1 => by
    rw [h j, Course.oneFrame_steps low v p h0 h1 h j]
    push_cast
    rw [add_sub_cancel_left, Int.emod_add_emod]
    ring_nf

end Sys2Proof.Machine
end

