-- ==== Sys2Proof/Laws/State.lean ====
section
/-! SUPPORT. One lemma per field per update of the state: the field an update does not write stands. -/

namespace Sys2Proof.Machine

@[simp] theorem State.setClip_port (s : State) (h : Nat) (c : Clip) : (s.setClip h c).port = s.port := rfl
@[simp] theorem State.setClip_views (s : State) (h : Nat) (c : Clip) : (s.setClip h c).views = s.views := rfl
@[simp] theorem State.setClip_chans (s : State) (h : Nat) (c : Clip) : (s.setClip h c).chans = s.chans := rfl
@[simp] theorem State.setClip_rings (s : State) (h : Nat) (c : Clip) : (s.setClip h c).rings = s.rings := rfl
@[simp] theorem State.setClip_store (s : State) (h : Nat) (c : Clip) : (s.setClip h c).store = s.store := rfl
@[simp] theorem State.setClip_sched (s : State) (h : Nat) (c : Clip) : (s.setClip h c).sched = s.sched := rfl
@[simp] theorem State.setClip_links (s : State) (h : Nat) (c : Clip) : (s.setClip h c).links = s.links := rfl
@[simp] theorem State.setClip_volumes (s : State) (h : Nat) (c : Clip) : (s.setClip h c).volumes = s.volumes := rfl
@[simp] theorem State.setClip_time (s : State) (h : Nat) (c : Clip) : (s.setClip h c).time = s.time := rfl
@[simp] theorem State.setClip_handed (s : State) (h : Nat) (c : Clip) : (s.setClip h c).handed = s.handed := rfl
@[simp] theorem State.setClip_out (s : State) (h : Nat) (c : Clip) : (s.setClip h c).out = s.out := rfl
@[simp] theorem State.setClip_freeDraws (s : State) (h : Nat) (c : Clip) : (s.setClip h c).freeDraws = s.freeDraws := rfl
@[simp] theorem State.setClip_pending (s : State) (h : Nat) (c : Clip) : (s.setClip h c).pending = s.pending := rfl

@[simp] theorem State.setView_port (s : State) (v : Nat) (w : View) : (s.setView v w).port = s.port := rfl
@[simp] theorem State.setView_map (s : State) (v : Nat) (w : View) : (s.setView v w).map = s.map := rfl
@[simp] theorem State.setView_chans (s : State) (v : Nat) (w : View) : (s.setView v w).chans = s.chans := rfl
@[simp] theorem State.setView_rings (s : State) (v : Nat) (w : View) : (s.setView v w).rings = s.rings := rfl
@[simp] theorem State.setView_store (s : State) (v : Nat) (w : View) : (s.setView v w).store = s.store := rfl
@[simp] theorem State.setView_sched (s : State) (v : Nat) (w : View) : (s.setView v w).sched = s.sched := rfl
@[simp] theorem State.setView_links (s : State) (v : Nat) (w : View) : (s.setView v w).links = s.links := rfl
@[simp] theorem State.setView_volumes (s : State) (v : Nat) (w : View) : (s.setView v w).volumes = s.volumes := rfl
@[simp] theorem State.setView_time (s : State) (v : Nat) (w : View) : (s.setView v w).time = s.time := rfl
@[simp] theorem State.setView_handed (s : State) (v : Nat) (w : View) : (s.setView v w).handed = s.handed := rfl
@[simp] theorem State.setView_out (s : State) (v : Nat) (w : View) : (s.setView v w).out = s.out := rfl
@[simp] theorem State.setView_freeDraws (s : State) (v : Nat) (w : View) : (s.setView v w).freeDraws = s.freeDraws := rfl
@[simp] theorem State.setView_pending (s : State) (v : Nat) (w : View) : (s.setView v w).pending = s.pending := rfl

@[simp] theorem State.setChan_port (s : State) (c : Nat) (ch : Channel) : (s.setChan c ch).port = s.port := rfl
@[simp] theorem State.setChan_map (s : State) (c : Nat) (ch : Channel) : (s.setChan c ch).map = s.map := rfl
@[simp] theorem State.setChan_views (s : State) (c : Nat) (ch : Channel) : (s.setChan c ch).views = s.views := rfl
@[simp] theorem State.setChan_rings (s : State) (c : Nat) (ch : Channel) : (s.setChan c ch).rings = s.rings := rfl
@[simp] theorem State.setChan_store (s : State) (c : Nat) (ch : Channel) : (s.setChan c ch).store = s.store := rfl
@[simp] theorem State.setChan_sched (s : State) (c : Nat) (ch : Channel) : (s.setChan c ch).sched = s.sched := rfl
@[simp] theorem State.setChan_links (s : State) (c : Nat) (ch : Channel) : (s.setChan c ch).links = s.links := rfl
@[simp] theorem State.setChan_volumes (s : State) (c : Nat) (ch : Channel) : (s.setChan c ch).volumes = s.volumes := rfl
@[simp] theorem State.setChan_time (s : State) (c : Nat) (ch : Channel) : (s.setChan c ch).time = s.time := rfl
@[simp] theorem State.setChan_handed (s : State) (c : Nat) (ch : Channel) : (s.setChan c ch).handed = s.handed := rfl
@[simp] theorem State.setChan_out (s : State) (c : Nat) (ch : Channel) : (s.setChan c ch).out = s.out := rfl
@[simp] theorem State.setChan_freeDraws (s : State) (c : Nat) (ch : Channel) : (s.setChan c ch).freeDraws = s.freeDraws := rfl
@[simp] theorem State.setChan_pending (s : State) (c : Nat) (ch : Channel) : (s.setChan c ch).pending = s.pending := rfl

@[simp] theorem State.modChan_port (s : State) (c : Nat) (f : Channel → Channel) : (s.modChan c f).port = s.port := rfl
@[simp] theorem State.modChan_map (s : State) (c : Nat) (f : Channel → Channel) : (s.modChan c f).map = s.map := rfl
@[simp] theorem State.modChan_views (s : State) (c : Nat) (f : Channel → Channel) : (s.modChan c f).views = s.views := rfl
@[simp] theorem State.modChan_rings (s : State) (c : Nat) (f : Channel → Channel) : (s.modChan c f).rings = s.rings := rfl
@[simp] theorem State.modChan_store (s : State) (c : Nat) (f : Channel → Channel) : (s.modChan c f).store = s.store := rfl
@[simp] theorem State.modChan_sched (s : State) (c : Nat) (f : Channel → Channel) : (s.modChan c f).sched = s.sched := rfl
@[simp] theorem State.modChan_links (s : State) (c : Nat) (f : Channel → Channel) : (s.modChan c f).links = s.links := rfl
@[simp] theorem State.modChan_volumes (s : State) (c : Nat) (f : Channel → Channel) : (s.modChan c f).volumes = s.volumes := rfl
@[simp] theorem State.modChan_time (s : State) (c : Nat) (f : Channel → Channel) : (s.modChan c f).time = s.time := rfl
@[simp] theorem State.modChan_handed (s : State) (c : Nat) (f : Channel → Channel) : (s.modChan c f).handed = s.handed := rfl
@[simp] theorem State.modChan_out (s : State) (c : Nat) (f : Channel → Channel) : (s.modChan c f).out = s.out := rfl
@[simp] theorem State.modChan_freeDraws (s : State) (c : Nat) (f : Channel → Channel) : (s.modChan c f).freeDraws = s.freeDraws := rfl
@[simp] theorem State.modChan_pending (s : State) (c : Nat) (f : Channel → Channel) : (s.modChan c f).pending = s.pending := rfl

@[simp] theorem State.setRing_port (s : State) (c : Nat) (r : Ring) : (s.setRing c r).port = s.port := rfl
@[simp] theorem State.setRing_map (s : State) (c : Nat) (r : Ring) : (s.setRing c r).map = s.map := rfl
@[simp] theorem State.setRing_views (s : State) (c : Nat) (r : Ring) : (s.setRing c r).views = s.views := rfl
@[simp] theorem State.setRing_chans (s : State) (c : Nat) (r : Ring) : (s.setRing c r).chans = s.chans := rfl
@[simp] theorem State.setRing_store (s : State) (c : Nat) (r : Ring) : (s.setRing c r).store = s.store := rfl
@[simp] theorem State.setRing_sched (s : State) (c : Nat) (r : Ring) : (s.setRing c r).sched = s.sched := rfl
@[simp] theorem State.setRing_links (s : State) (c : Nat) (r : Ring) : (s.setRing c r).links = s.links := rfl
@[simp] theorem State.setRing_volumes (s : State) (c : Nat) (r : Ring) : (s.setRing c r).volumes = s.volumes := rfl
@[simp] theorem State.setRing_time (s : State) (c : Nat) (r : Ring) : (s.setRing c r).time = s.time := rfl
@[simp] theorem State.setRing_handed (s : State) (c : Nat) (r : Ring) : (s.setRing c r).handed = s.handed := rfl
@[simp] theorem State.setRing_out (s : State) (c : Nat) (r : Ring) : (s.setRing c r).out = s.out := rfl
@[simp] theorem State.setRing_freeDraws (s : State) (c : Nat) (r : Ring) : (s.setRing c r).freeDraws = s.freeDraws := rfl
@[simp] theorem State.setRing_pending (s : State) (c : Nat) (r : Ring) : (s.setRing c r).pending = s.pending := rfl

@[simp] theorem State.modRing_port (s : State) (c : Nat) (f : Ring → Ring) : (s.modRing c f).port = s.port := rfl
@[simp] theorem State.modRing_map (s : State) (c : Nat) (f : Ring → Ring) : (s.modRing c f).map = s.map := rfl
@[simp] theorem State.modRing_views (s : State) (c : Nat) (f : Ring → Ring) : (s.modRing c f).views = s.views := rfl
@[simp] theorem State.modRing_chans (s : State) (c : Nat) (f : Ring → Ring) : (s.modRing c f).chans = s.chans := rfl
@[simp] theorem State.modRing_store (s : State) (c : Nat) (f : Ring → Ring) : (s.modRing c f).store = s.store := rfl
@[simp] theorem State.modRing_sched (s : State) (c : Nat) (f : Ring → Ring) : (s.modRing c f).sched = s.sched := rfl
@[simp] theorem State.modRing_links (s : State) (c : Nat) (f : Ring → Ring) : (s.modRing c f).links = s.links := rfl
@[simp] theorem State.modRing_volumes (s : State) (c : Nat) (f : Ring → Ring) : (s.modRing c f).volumes = s.volumes := rfl
@[simp] theorem State.modRing_time (s : State) (c : Nat) (f : Ring → Ring) : (s.modRing c f).time = s.time := rfl
@[simp] theorem State.modRing_handed (s : State) (c : Nat) (f : Ring → Ring) : (s.modRing c f).handed = s.handed := rfl
@[simp] theorem State.modRing_out (s : State) (c : Nat) (f : Ring → Ring) : (s.modRing c f).out = s.out := rfl
@[simp] theorem State.modRing_freeDraws (s : State) (c : Nat) (f : Ring → Ring) : (s.modRing c f).freeDraws = s.freeDraws := rfl
@[simp] theorem State.modRing_pending (s : State) (c : Nat) (f : Ring → Ring) : (s.modRing c f).pending = s.pending := rfl

@[simp] theorem State.setEntry_port (s : State) (e : Nat) (o : Option Entry) : (s.setEntry e o).port = s.port := rfl
@[simp] theorem State.setEntry_map (s : State) (e : Nat) (o : Option Entry) : (s.setEntry e o).map = s.map := rfl
@[simp] theorem State.setEntry_views (s : State) (e : Nat) (o : Option Entry) : (s.setEntry e o).views = s.views := rfl
@[simp] theorem State.setEntry_chans (s : State) (e : Nat) (o : Option Entry) : (s.setEntry e o).chans = s.chans := rfl
@[simp] theorem State.setEntry_rings (s : State) (e : Nat) (o : Option Entry) : (s.setEntry e o).rings = s.rings := rfl
@[simp] theorem State.setEntry_sched (s : State) (e : Nat) (o : Option Entry) : (s.setEntry e o).sched = s.sched := rfl
@[simp] theorem State.setEntry_links (s : State) (e : Nat) (o : Option Entry) : (s.setEntry e o).links = s.links := rfl
@[simp] theorem State.setEntry_volumes (s : State) (e : Nat) (o : Option Entry) : (s.setEntry e o).volumes = s.volumes := rfl
@[simp] theorem State.setEntry_time (s : State) (e : Nat) (o : Option Entry) : (s.setEntry e o).time = s.time := rfl
@[simp] theorem State.setEntry_handed (s : State) (e : Nat) (o : Option Entry) : (s.setEntry e o).handed = s.handed := rfl
@[simp] theorem State.setEntry_out (s : State) (e : Nat) (o : Option Entry) : (s.setEntry e o).out = s.out := rfl
@[simp] theorem State.setEntry_freeDraws (s : State) (e : Nat) (o : Option Entry) : (s.setEntry e o).freeDraws = s.freeDraws := rfl
@[simp] theorem State.setEntry_pending (s : State) (e : Nat) (o : Option Entry) : (s.setEntry e o).pending = s.pending := rfl

@[simp] theorem State.modEntry_port (s : State) (e : Nat) (f : Entry → Entry) : (s.modEntry e f).port = s.port := rfl
@[simp] theorem State.modEntry_map (s : State) (e : Nat) (f : Entry → Entry) : (s.modEntry e f).map = s.map := rfl
@[simp] theorem State.modEntry_views (s : State) (e : Nat) (f : Entry → Entry) : (s.modEntry e f).views = s.views := rfl
@[simp] theorem State.modEntry_chans (s : State) (e : Nat) (f : Entry → Entry) : (s.modEntry e f).chans = s.chans := rfl
@[simp] theorem State.modEntry_rings (s : State) (e : Nat) (f : Entry → Entry) : (s.modEntry e f).rings = s.rings := rfl
@[simp] theorem State.modEntry_sched (s : State) (e : Nat) (f : Entry → Entry) : (s.modEntry e f).sched = s.sched := rfl
@[simp] theorem State.modEntry_links (s : State) (e : Nat) (f : Entry → Entry) : (s.modEntry e f).links = s.links := rfl
@[simp] theorem State.modEntry_volumes (s : State) (e : Nat) (f : Entry → Entry) : (s.modEntry e f).volumes = s.volumes := rfl
@[simp] theorem State.modEntry_time (s : State) (e : Nat) (f : Entry → Entry) : (s.modEntry e f).time = s.time := rfl
@[simp] theorem State.modEntry_handed (s : State) (e : Nat) (f : Entry → Entry) : (s.modEntry e f).handed = s.handed := rfl
@[simp] theorem State.modEntry_out (s : State) (e : Nat) (f : Entry → Entry) : (s.modEntry e f).out = s.out := rfl
@[simp] theorem State.modEntry_freeDraws (s : State) (e : Nat) (f : Entry → Entry) : (s.modEntry e f).freeDraws = s.freeDraws := rfl
@[simp] theorem State.modEntry_pending (s : State) (e : Nat) (f : Entry → Entry) : (s.modEntry e f).pending = s.pending := rfl

@[simp] theorem State.setPin_port (s : State) (p : Nat) (q : Pin) : (s.setPin p q).port = s.port := rfl
@[simp] theorem State.setPin_map (s : State) (p : Nat) (q : Pin) : (s.setPin p q).map = s.map := rfl
@[simp] theorem State.setPin_views (s : State) (p : Nat) (q : Pin) : (s.setPin p q).views = s.views := rfl
@[simp] theorem State.setPin_chans (s : State) (p : Nat) (q : Pin) : (s.setPin p q).chans = s.chans := rfl
@[simp] theorem State.setPin_rings (s : State) (p : Nat) (q : Pin) : (s.setPin p q).rings = s.rings := rfl
@[simp] theorem State.setPin_sched (s : State) (p : Nat) (q : Pin) : (s.setPin p q).sched = s.sched := rfl
@[simp] theorem State.setPin_links (s : State) (p : Nat) (q : Pin) : (s.setPin p q).links = s.links := rfl
@[simp] theorem State.setPin_volumes (s : State) (p : Nat) (q : Pin) : (s.setPin p q).volumes = s.volumes := rfl
@[simp] theorem State.setPin_time (s : State) (p : Nat) (q : Pin) : (s.setPin p q).time = s.time := rfl
@[simp] theorem State.setPin_handed (s : State) (p : Nat) (q : Pin) : (s.setPin p q).handed = s.handed := rfl
@[simp] theorem State.setPin_out (s : State) (p : Nat) (q : Pin) : (s.setPin p q).out = s.out := rfl
@[simp] theorem State.setPin_freeDraws (s : State) (p : Nat) (q : Pin) : (s.setPin p q).freeDraws = s.freeDraws := rfl
@[simp] theorem State.setPin_pending (s : State) (p : Nat) (q : Pin) : (s.setPin p q).pending = s.pending := rfl

@[simp] theorem State.setContext_port (s : State) (e : Nat) (o : Option Context) : (s.setContext e o).port = s.port := rfl
@[simp] theorem State.setContext_map (s : State) (e : Nat) (o : Option Context) : (s.setContext e o).map = s.map := rfl
@[simp] theorem State.setContext_views (s : State) (e : Nat) (o : Option Context) : (s.setContext e o).views = s.views := rfl
@[simp] theorem State.setContext_chans (s : State) (e : Nat) (o : Option Context) : (s.setContext e o).chans = s.chans := rfl
@[simp] theorem State.setContext_rings (s : State) (e : Nat) (o : Option Context) : (s.setContext e o).rings = s.rings := rfl
@[simp] theorem State.setContext_store (s : State) (e : Nat) (o : Option Context) : (s.setContext e o).store = s.store := rfl
@[simp] theorem State.setContext_links (s : State) (e : Nat) (o : Option Context) : (s.setContext e o).links = s.links := rfl
@[simp] theorem State.setContext_volumes (s : State) (e : Nat) (o : Option Context) : (s.setContext e o).volumes = s.volumes := rfl
@[simp] theorem State.setContext_time (s : State) (e : Nat) (o : Option Context) : (s.setContext e o).time = s.time := rfl
@[simp] theorem State.setContext_handed (s : State) (e : Nat) (o : Option Context) : (s.setContext e o).handed = s.handed := rfl
@[simp] theorem State.setContext_out (s : State) (e : Nat) (o : Option Context) : (s.setContext e o).out = s.out := rfl
@[simp] theorem State.setContext_freeDraws (s : State) (e : Nat) (o : Option Context) : (s.setContext e o).freeDraws = s.freeDraws := rfl
@[simp] theorem State.setContext_pending (s : State) (e : Nat) (o : Option Context) : (s.setContext e o).pending = s.pending := rfl

@[simp] theorem State.modContext_port (s : State) (e : Nat) (f : Context → Context) : (s.modContext e f).port = s.port := rfl
@[simp] theorem State.modContext_map (s : State) (e : Nat) (f : Context → Context) : (s.modContext e f).map = s.map := rfl
@[simp] theorem State.modContext_views (s : State) (e : Nat) (f : Context → Context) : (s.modContext e f).views = s.views := rfl
@[simp] theorem State.modContext_chans (s : State) (e : Nat) (f : Context → Context) : (s.modContext e f).chans = s.chans := rfl
@[simp] theorem State.modContext_rings (s : State) (e : Nat) (f : Context → Context) : (s.modContext e f).rings = s.rings := rfl
@[simp] theorem State.modContext_store (s : State) (e : Nat) (f : Context → Context) : (s.modContext e f).store = s.store := rfl
@[simp] theorem State.modContext_links (s : State) (e : Nat) (f : Context → Context) : (s.modContext e f).links = s.links := rfl
@[simp] theorem State.modContext_volumes (s : State) (e : Nat) (f : Context → Context) : (s.modContext e f).volumes = s.volumes := rfl
@[simp] theorem State.modContext_time (s : State) (e : Nat) (f : Context → Context) : (s.modContext e f).time = s.time := rfl
@[simp] theorem State.modContext_handed (s : State) (e : Nat) (f : Context → Context) : (s.modContext e f).handed = s.handed := rfl
@[simp] theorem State.modContext_out (s : State) (e : Nat) (f : Context → Context) : (s.modContext e f).out = s.out := rfl
@[simp] theorem State.modContext_freeDraws (s : State) (e : Nat) (f : Context → Context) : (s.modContext e f).freeDraws = s.freeDraws := rfl
@[simp] theorem State.modContext_pending (s : State) (e : Nat) (f : Context → Context) : (s.modContext e f).pending = s.pending := rfl

@[simp] theorem State.setLink_port (s : State) (m : Nat) (l : Link) : (s.setLink m l).port = s.port := rfl
@[simp] theorem State.setLink_map (s : State) (m : Nat) (l : Link) : (s.setLink m l).map = s.map := rfl
@[simp] theorem State.setLink_views (s : State) (m : Nat) (l : Link) : (s.setLink m l).views = s.views := rfl
@[simp] theorem State.setLink_chans (s : State) (m : Nat) (l : Link) : (s.setLink m l).chans = s.chans := rfl
@[simp] theorem State.setLink_rings (s : State) (m : Nat) (l : Link) : (s.setLink m l).rings = s.rings := rfl
@[simp] theorem State.setLink_store (s : State) (m : Nat) (l : Link) : (s.setLink m l).store = s.store := rfl
@[simp] theorem State.setLink_sched (s : State) (m : Nat) (l : Link) : (s.setLink m l).sched = s.sched := rfl
@[simp] theorem State.setLink_volumes (s : State) (m : Nat) (l : Link) : (s.setLink m l).volumes = s.volumes := rfl
@[simp] theorem State.setLink_time (s : State) (m : Nat) (l : Link) : (s.setLink m l).time = s.time := rfl
@[simp] theorem State.setLink_handed (s : State) (m : Nat) (l : Link) : (s.setLink m l).handed = s.handed := rfl
@[simp] theorem State.setLink_out (s : State) (m : Nat) (l : Link) : (s.setLink m l).out = s.out := rfl
@[simp] theorem State.setLink_freeDraws (s : State) (m : Nat) (l : Link) : (s.setLink m l).freeDraws = s.freeDraws := rfl
@[simp] theorem State.setLink_pending (s : State) (m : Nat) (l : Link) : (s.setLink m l).pending = s.pending := rfl

@[simp] theorem State.modLink_port (s : State) (m : Nat) (f : Link → Link) : (s.modLink m f).port = s.port := rfl
@[simp] theorem State.modLink_map (s : State) (m : Nat) (f : Link → Link) : (s.modLink m f).map = s.map := rfl
@[simp] theorem State.modLink_views (s : State) (m : Nat) (f : Link → Link) : (s.modLink m f).views = s.views := rfl
@[simp] theorem State.modLink_chans (s : State) (m : Nat) (f : Link → Link) : (s.modLink m f).chans = s.chans := rfl
@[simp] theorem State.modLink_rings (s : State) (m : Nat) (f : Link → Link) : (s.modLink m f).rings = s.rings := rfl
@[simp] theorem State.modLink_store (s : State) (m : Nat) (f : Link → Link) : (s.modLink m f).store = s.store := rfl
@[simp] theorem State.modLink_sched (s : State) (m : Nat) (f : Link → Link) : (s.modLink m f).sched = s.sched := rfl
@[simp] theorem State.modLink_volumes (s : State) (m : Nat) (f : Link → Link) : (s.modLink m f).volumes = s.volumes := rfl
@[simp] theorem State.modLink_time (s : State) (m : Nat) (f : Link → Link) : (s.modLink m f).time = s.time := rfl
@[simp] theorem State.modLink_handed (s : State) (m : Nat) (f : Link → Link) : (s.modLink m f).handed = s.handed := rfl
@[simp] theorem State.modLink_out (s : State) (m : Nat) (f : Link → Link) : (s.modLink m f).out = s.out := rfl
@[simp] theorem State.modLink_freeDraws (s : State) (m : Nat) (f : Link → Link) : (s.modLink m f).freeDraws = s.freeDraws := rfl
@[simp] theorem State.modLink_pending (s : State) (m : Nat) (f : Link → Link) : (s.modLink m f).pending = s.pending := rfl

@[simp] theorem State.setVolume_port (s : State) (v : Nat) (w : Volume) : (s.setVolume v w).port = s.port := rfl
@[simp] theorem State.setVolume_map (s : State) (v : Nat) (w : Volume) : (s.setVolume v w).map = s.map := rfl
@[simp] theorem State.setVolume_views (s : State) (v : Nat) (w : Volume) : (s.setVolume v w).views = s.views := rfl
@[simp] theorem State.setVolume_chans (s : State) (v : Nat) (w : Volume) : (s.setVolume v w).chans = s.chans := rfl
@[simp] theorem State.setVolume_rings (s : State) (v : Nat) (w : Volume) : (s.setVolume v w).rings = s.rings := rfl
@[simp] theorem State.setVolume_store (s : State) (v : Nat) (w : Volume) : (s.setVolume v w).store = s.store := rfl
@[simp] theorem State.setVolume_sched (s : State) (v : Nat) (w : Volume) : (s.setVolume v w).sched = s.sched := rfl
@[simp] theorem State.setVolume_links (s : State) (v : Nat) (w : Volume) : (s.setVolume v w).links = s.links := rfl
@[simp] theorem State.setVolume_time (s : State) (v : Nat) (w : Volume) : (s.setVolume v w).time = s.time := rfl
@[simp] theorem State.setVolume_handed (s : State) (v : Nat) (w : Volume) : (s.setVolume v w).handed = s.handed := rfl
@[simp] theorem State.setVolume_out (s : State) (v : Nat) (w : Volume) : (s.setVolume v w).out = s.out := rfl
@[simp] theorem State.setVolume_freeDraws (s : State) (v : Nat) (w : Volume) : (s.setVolume v w).freeDraws = s.freeDraws := rfl
@[simp] theorem State.setVolume_pending (s : State) (v : Nat) (w : Volume) : (s.setVolume v w).pending = s.pending := rfl

@[simp] theorem State.emit_port (s : State) (o : Output) : (s.emit o).port = s.port := rfl
@[simp] theorem State.emit_map (s : State) (o : Output) : (s.emit o).map = s.map := rfl
@[simp] theorem State.emit_views (s : State) (o : Output) : (s.emit o).views = s.views := rfl
@[simp] theorem State.emit_chans (s : State) (o : Output) : (s.emit o).chans = s.chans := rfl
@[simp] theorem State.emit_rings (s : State) (o : Output) : (s.emit o).rings = s.rings := rfl
@[simp] theorem State.emit_store (s : State) (o : Output) : (s.emit o).store = s.store := rfl
@[simp] theorem State.emit_sched (s : State) (o : Output) : (s.emit o).sched = s.sched := rfl
@[simp] theorem State.emit_links (s : State) (o : Output) : (s.emit o).links = s.links := rfl
@[simp] theorem State.emit_volumes (s : State) (o : Output) : (s.emit o).volumes = s.volumes := rfl
@[simp] theorem State.emit_time (s : State) (o : Output) : (s.emit o).time = s.time := rfl
@[simp] theorem State.emit_handed (s : State) (o : Output) : (s.emit o).handed = s.handed := rfl
@[simp] theorem State.emit_freeDraws (s : State) (o : Output) : (s.emit o).freeDraws = s.freeDraws := rfl
@[simp] theorem State.emit_pending (s : State) (o : Output) : (s.emit o).pending = s.pending := rfl

@[simp] theorem State.setPartFlag_map (s : State) (f : BitVec 4) : (s.setPartFlag f).map = s.map := rfl
@[simp] theorem State.setPartFlag_views (s : State) (f : BitVec 4) : (s.setPartFlag f).views = s.views := rfl
@[simp] theorem State.setPartFlag_chans (s : State) (f : BitVec 4) : (s.setPartFlag f).chans = s.chans := rfl
@[simp] theorem State.setPartFlag_rings (s : State) (f : BitVec 4) : (s.setPartFlag f).rings = s.rings := rfl
@[simp] theorem State.setPartFlag_store (s : State) (f : BitVec 4) : (s.setPartFlag f).store = s.store := rfl
@[simp] theorem State.setPartFlag_sched (s : State) (f : BitVec 4) : (s.setPartFlag f).sched = s.sched := rfl
@[simp] theorem State.setPartFlag_links (s : State) (f : BitVec 4) : (s.setPartFlag f).links = s.links := rfl
@[simp] theorem State.setPartFlag_volumes (s : State) (f : BitVec 4) : (s.setPartFlag f).volumes = s.volumes := rfl
@[simp] theorem State.setPartFlag_time (s : State) (f : BitVec 4) : (s.setPartFlag f).time = s.time := rfl
@[simp] theorem State.setPartFlag_handed (s : State) (f : BitVec 4) : (s.setPartFlag f).handed = s.handed := rfl
@[simp] theorem State.setPartFlag_out (s : State) (f : BitVec 4) : (s.setPartFlag f).out = s.out := rfl
@[simp] theorem State.setPartFlag_freeDraws (s : State) (f : BitVec 4) : (s.setPartFlag f).freeDraws = s.freeDraws := rfl
@[simp] theorem State.setPartFlag_pending (s : State) (f : BitVec 4) : (s.setPartFlag f).pending = s.pending := rfl

@[simp] theorem State.setChanFlag_port (s : State) (c : Nat) (f : BitVec 7) : (s.setChanFlag c f).port = s.port := rfl
@[simp] theorem State.setChanFlag_map (s : State) (c : Nat) (f : BitVec 7) : (s.setChanFlag c f).map = s.map := rfl
@[simp] theorem State.setChanFlag_views (s : State) (c : Nat) (f : BitVec 7) : (s.setChanFlag c f).views = s.views := rfl
@[simp] theorem State.setChanFlag_rings (s : State) (c : Nat) (f : BitVec 7) : (s.setChanFlag c f).rings = s.rings := rfl
@[simp] theorem State.setChanFlag_store (s : State) (c : Nat) (f : BitVec 7) : (s.setChanFlag c f).store = s.store := rfl
@[simp] theorem State.setChanFlag_sched (s : State) (c : Nat) (f : BitVec 7) : (s.setChanFlag c f).sched = s.sched := rfl
@[simp] theorem State.setChanFlag_links (s : State) (c : Nat) (f : BitVec 7) : (s.setChanFlag c f).links = s.links := rfl
@[simp] theorem State.setChanFlag_volumes (s : State) (c : Nat) (f : BitVec 7) : (s.setChanFlag c f).volumes = s.volumes := rfl
@[simp] theorem State.setChanFlag_time (s : State) (c : Nat) (f : BitVec 7) : (s.setChanFlag c f).time = s.time := rfl
@[simp] theorem State.setChanFlag_handed (s : State) (c : Nat) (f : BitVec 7) : (s.setChanFlag c f).handed = s.handed := rfl
@[simp] theorem State.setChanFlag_out (s : State) (c : Nat) (f : BitVec 7) : (s.setChanFlag c f).out = s.out := rfl
@[simp] theorem State.setChanFlag_freeDraws (s : State) (c : Nat) (f : BitVec 7) : (s.setChanFlag c f).freeDraws = s.freeDraws := rfl
@[simp] theorem State.setChanFlag_pending (s : State) (c : Nat) (f : BitVec 7) : (s.setChanFlag c f).pending = s.pending := rfl

@[simp] theorem State.draw_port (s : State) : (s.draw).port = s.port := rfl
@[simp] theorem State.draw_map (s : State) : (s.draw).map = s.map := rfl
@[simp] theorem State.draw_views (s : State) : (s.draw).views = s.views := rfl
@[simp] theorem State.draw_chans (s : State) : (s.draw).chans = s.chans := rfl
@[simp] theorem State.draw_rings (s : State) : (s.draw).rings = s.rings := rfl
@[simp] theorem State.draw_store (s : State) : (s.draw).store = s.store := rfl
@[simp] theorem State.draw_sched (s : State) : (s.draw).sched = s.sched := rfl
@[simp] theorem State.draw_links (s : State) : (s.draw).links = s.links := rfl
@[simp] theorem State.draw_volumes (s : State) : (s.draw).volumes = s.volumes := rfl
@[simp] theorem State.draw_time (s : State) : (s.draw).time = s.time := rfl
@[simp] theorem State.draw_handed (s : State) : (s.draw).handed = s.handed := rfl
@[simp] theorem State.draw_out (s : State) : (s.draw).out = s.out := rfl
@[simp] theorem State.draw_pending (s : State) : (s.draw).pending = s.pending := rfl

@[simp] theorem State.replyDetail_port (s : State) (t : Ticket) (r : Result) (d : BitVec 8) (is : List Item) : (s.replyDetail t r d is).port = s.port := rfl
@[simp] theorem State.replyDetail_map (s : State) (t : Ticket) (r : Result) (d : BitVec 8) (is : List Item) : (s.replyDetail t r d is).map = s.map := rfl
@[simp] theorem State.replyDetail_views (s : State) (t : Ticket) (r : Result) (d : BitVec 8) (is : List Item) : (s.replyDetail t r d is).views = s.views := rfl
@[simp] theorem State.replyDetail_chans (s : State) (t : Ticket) (r : Result) (d : BitVec 8) (is : List Item) : (s.replyDetail t r d is).chans = s.chans := rfl
@[simp] theorem State.replyDetail_rings (s : State) (t : Ticket) (r : Result) (d : BitVec 8) (is : List Item) : (s.replyDetail t r d is).rings = s.rings := rfl
@[simp] theorem State.replyDetail_store (s : State) (t : Ticket) (r : Result) (d : BitVec 8) (is : List Item) : (s.replyDetail t r d is).store = s.store := rfl
@[simp] theorem State.replyDetail_sched (s : State) (t : Ticket) (r : Result) (d : BitVec 8) (is : List Item) : (s.replyDetail t r d is).sched = s.sched := rfl
@[simp] theorem State.replyDetail_links (s : State) (t : Ticket) (r : Result) (d : BitVec 8) (is : List Item) : (s.replyDetail t r d is).links = s.links := rfl
@[simp] theorem State.replyDetail_volumes (s : State) (t : Ticket) (r : Result) (d : BitVec 8) (is : List Item) : (s.replyDetail t r d is).volumes = s.volumes := rfl
@[simp] theorem State.replyDetail_time (s : State) (t : Ticket) (r : Result) (d : BitVec 8) (is : List Item) : (s.replyDetail t r d is).time = s.time := rfl
@[simp] theorem State.replyDetail_out (s : State) (t : Ticket) (r : Result) (d : BitVec 8) (is : List Item) : (s.replyDetail t r d is).out = s.out := rfl
@[simp] theorem State.replyDetail_freeDraws (s : State) (t : Ticket) (r : Result) (d : BitVec 8) (is : List Item) : (s.replyDetail t r d is).freeDraws = s.freeDraws := rfl
@[simp] theorem State.replyDetail_pending (s : State) (t : Ticket) (r : Result) (d : BitVec 8) (is : List Item) : (s.replyDetail t r d is).pending = s.pending := rfl

@[simp] theorem State.reply_port (s : State) (t : Ticket) (r : Result) (is : List Item) : (s.reply t r is).port = s.port := rfl
@[simp] theorem State.reply_map (s : State) (t : Ticket) (r : Result) (is : List Item) : (s.reply t r is).map = s.map := rfl
@[simp] theorem State.reply_views (s : State) (t : Ticket) (r : Result) (is : List Item) : (s.reply t r is).views = s.views := rfl
@[simp] theorem State.reply_chans (s : State) (t : Ticket) (r : Result) (is : List Item) : (s.reply t r is).chans = s.chans := rfl
@[simp] theorem State.reply_rings (s : State) (t : Ticket) (r : Result) (is : List Item) : (s.reply t r is).rings = s.rings := rfl
@[simp] theorem State.reply_store (s : State) (t : Ticket) (r : Result) (is : List Item) : (s.reply t r is).store = s.store := rfl
@[simp] theorem State.reply_sched (s : State) (t : Ticket) (r : Result) (is : List Item) : (s.reply t r is).sched = s.sched := rfl
@[simp] theorem State.reply_links (s : State) (t : Ticket) (r : Result) (is : List Item) : (s.reply t r is).links = s.links := rfl
@[simp] theorem State.reply_volumes (s : State) (t : Ticket) (r : Result) (is : List Item) : (s.reply t r is).volumes = s.volumes := rfl
@[simp] theorem State.reply_time (s : State) (t : Ticket) (r : Result) (is : List Item) : (s.reply t r is).time = s.time := rfl
@[simp] theorem State.reply_out (s : State) (t : Ticket) (r : Result) (is : List Item) : (s.reply t r is).out = s.out := rfl
@[simp] theorem State.reply_freeDraws (s : State) (t : Ticket) (r : Result) (is : List Item) : (s.reply t r is).freeDraws = s.freeDraws := rfl
@[simp] theorem State.reply_pending (s : State) (t : Ticket) (r : Result) (is : List Item) : (s.reply t r is).pending = s.pending := rfl

@[simp] theorem State.refuse_port (s : State) (t : Ticket) (r : Result) : (s.refuse t r).port = s.port := rfl
@[simp] theorem State.refuse_map (s : State) (t : Ticket) (r : Result) : (s.refuse t r).map = s.map := rfl
@[simp] theorem State.refuse_views (s : State) (t : Ticket) (r : Result) : (s.refuse t r).views = s.views := rfl
@[simp] theorem State.refuse_chans (s : State) (t : Ticket) (r : Result) : (s.refuse t r).chans = s.chans := rfl
@[simp] theorem State.refuse_rings (s : State) (t : Ticket) (r : Result) : (s.refuse t r).rings = s.rings := rfl
@[simp] theorem State.refuse_store (s : State) (t : Ticket) (r : Result) : (s.refuse t r).store = s.store := rfl
@[simp] theorem State.refuse_sched (s : State) (t : Ticket) (r : Result) : (s.refuse t r).sched = s.sched := rfl
@[simp] theorem State.refuse_links (s : State) (t : Ticket) (r : Result) : (s.refuse t r).links = s.links := rfl
@[simp] theorem State.refuse_volumes (s : State) (t : Ticket) (r : Result) : (s.refuse t r).volumes = s.volumes := rfl
@[simp] theorem State.refuse_time (s : State) (t : Ticket) (r : Result) : (s.refuse t r).time = s.time := rfl
@[simp] theorem State.refuse_out (s : State) (t : Ticket) (r : Result) : (s.refuse t r).out = s.out := rfl
@[simp] theorem State.refuse_freeDraws (s : State) (t : Ticket) (r : Result) : (s.refuse t r).freeDraws = s.freeDraws := rfl
@[simp] theorem State.refuse_pending (s : State) (t : Ticket) (r : Result) : (s.refuse t r).pending = s.pending := rfl

@[simp] theorem State.refuseRange_port (s : State) (t : Ticket) (p : Nat) : (s.refuseRange t p).port = s.port := rfl
@[simp] theorem State.refuseRange_map (s : State) (t : Ticket) (p : Nat) : (s.refuseRange t p).map = s.map := rfl
@[simp] theorem State.refuseRange_views (s : State) (t : Ticket) (p : Nat) : (s.refuseRange t p).views = s.views := rfl
@[simp] theorem State.refuseRange_chans (s : State) (t : Ticket) (p : Nat) : (s.refuseRange t p).chans = s.chans := rfl
@[simp] theorem State.refuseRange_rings (s : State) (t : Ticket) (p : Nat) : (s.refuseRange t p).rings = s.rings := rfl
@[simp] theorem State.refuseRange_store (s : State) (t : Ticket) (p : Nat) : (s.refuseRange t p).store = s.store := rfl
@[simp] theorem State.refuseRange_sched (s : State) (t : Ticket) (p : Nat) : (s.refuseRange t p).sched = s.sched := rfl
@[simp] theorem State.refuseRange_links (s : State) (t : Ticket) (p : Nat) : (s.refuseRange t p).links = s.links := rfl
@[simp] theorem State.refuseRange_volumes (s : State) (t : Ticket) (p : Nat) : (s.refuseRange t p).volumes = s.volumes := rfl
@[simp] theorem State.refuseRange_time (s : State) (t : Ticket) (p : Nat) : (s.refuseRange t p).time = s.time := rfl
@[simp] theorem State.refuseRange_out (s : State) (t : Ticket) (p : Nat) : (s.refuseRange t p).out = s.out := rfl
@[simp] theorem State.refuseRange_freeDraws (s : State) (t : Ticket) (p : Nat) : (s.refuseRange t p).freeDraws = s.freeDraws := rfl
@[simp] theorem State.refuseRange_pending (s : State) (t : Ticket) (p : Nat) : (s.refuseRange t p).pending = s.pending := rfl

/-! ## The due index and the live edge (R77, log 39) -/

@[simp] theorem Channel.due_period (ch : Channel) : ch.due.period = ch.dueIndex := rfl
@[simp] theorem Channel.due_pos (ch : Channel) : ch.due.pos = ch.pos := rfl
@[simp] theorem Channel.due_edge (ch : Channel) : ch.due.edge = ch.atEdge := rfl
@[simp] theorem Channel.moveTo_due (ch : Channel) (d : Cursor) : (ch.moveTo d).due = d := rfl
@[simp] theorem Channel.moveTo_edge (ch : Channel) (d : Cursor) : (ch.moveTo d).edge = d.edge := rfl
@[simp] theorem Channel.withRange_atEdge (ch : Channel) (i l : Nat) :
    (ch.withRange i l).atEdge = (ch.atEdge && ch.edgeUnder l) := rfl
@[simp] theorem Channel.withRange_edge (ch : Channel) (i l : Nat) :
    (ch.withRange i l).edge = (ch.edge && ch.edgeUnder l) := rfl
@[simp] theorem Channel.unbound_atEdge (ch : Channel) : ch.unbound.atEdge = false := rfl
@[simp] theorem Channel.judged_atEdge (ch : Channel) : ch.judged.atEdge = ch.atEdge := rfl
@[simp] theorem Channel.prime_atEdge (ch : Channel) : ch.prime.atEdge = ch.atEdge := rfl
@[simp] theorem Channel.settled_atEdge (ch : Channel) (n : Word32) (how : Settled) :
    (ch.settled n how).atEdge = ch.atEdge := rfl

end Sys2Proof.Machine
end

