-- ==== Sys2Proof/Laws/Table.lean ====
section
/-! SUPPORT. Keyed tables: a read after a write, and the canonical form every write keeps. -/

namespace Sys2Proof.Machine

variable {α : Type} (d : α)

theorem tget_terase_self (t : Tab α) (k : Nat) : tget d (terase t k) k = d := by
  induction t with
  | nil => rfl
  | cons c t ih =>
    obtain ⟨a, v⟩ := c
    by_cases h : a = k
    · simpa [terase, h] using ih
    · have : terase ((a, v) :: t) k = (a, v) :: terase t k := by simp [terase, h]
      rw [this, tget, if_neg h, ih]

theorem tget_terase_ne (t : Tab α) {k i : Nat} (h : i ≠ k) : tget d (terase t k) i = tget d t i := by
  induction t with
  | nil => rfl
  | cons c t ih =>
    obtain ⟨a, v⟩ := c
    by_cases ha : a = k
    · have hi : a ≠ i := fun e => h (e.symm.trans ha)
      have he : terase ((a, v) :: t) k = terase t k := by simp [terase, ha]
      rw [he, ih, tget, if_neg hi]
    · have he : terase ((a, v) :: t) k = (a, v) :: terase t k := by simp [terase, ha]
      rw [he, tget, tget, ih]

theorem tget_tinsert_ne (t : Tab α) {k i : Nat} (v : α) (h : i ≠ k) : tget d (tinsert k v t) i = tget d t i := by
  induction t with
  | nil => simp [tinsert, tget, h.symm]
  | cons c t ih =>
    obtain ⟨a, w⟩ := c
    simp only [tinsert]
    split
    · simp [tget, h.symm]
    · simp [tget, ih]

theorem tget_tinsert_self (t : Tab α) {k : Nat} (v : α) (h : ∀ c ∈ t, c.1 ≠ k) : tget d (tinsert k v t) k = v := by
  induction t with
  | nil => simp [tinsert, tget]
  | cons c t ih =>
    obtain ⟨a, w⟩ := c
    simp only [tinsert]
    split
    · simp [tget]
    · have ha : a ≠ k := h (a, w) (List.mem_cons_self ..)
      rw [tget, if_neg ha]
      exact ih (fun c hc => h c (List.mem_cons_of_mem _ hc))

theorem terase_ne (t : Tab α) (k : Nat) : ∀ c ∈ terase t k, c.1 ≠ k := by
  intro c hc
  have := (List.mem_filter.1 hc).2
  simpa using this

/-- A record reads as it was last written. -/
@[simp] theorem tget_tset_self [DecidableEq α] (t : Tab α) (k : Nat) (v : α) : tget d (tset d t k v) k = v := by
  unfold tset
  split
  · rename_i h; rw [tget_terase_self, h]
  · exact tget_tinsert_self d _ v (terase_ne t k)

/-- A write leaves every other record alone. -/
theorem tget_tset_ne [DecidableEq α] (t : Tab α) {k i : Nat} (v : α) (h : i ≠ k) :
    tget d (tset d t k v) i = tget d t i := by
  unfold tset
  split
  · exact tget_terase_ne d t h
  · rw [tget_tinsert_ne d _ v h, tget_terase_ne d t h]

/-- Both at once. -/
theorem tget_tset [DecidableEq α] (t : Tab α) (k i : Nat) (v : α) :
    tget d (tset d t k v) i = if i = k then v else tget d t i := by
  split
  · rename_i h; subst h; simp
  · rename_i h; exact tget_tset_ne d t v h

/-- A change of every record that leaves the default alone reads as the change of the record. -/
theorem tget_tmap (f : Nat → α → α) (t : Tab α) (i : Nat) (h : f i d = d) :
    tget d (tmap f t) i = f i (tget d t i) := by
  induction t with
  | nil => simp [tmap, tget, h]
  | cons c t ih =>
    obtain ⟨a, v⟩ := c
    simp only [tmap, List.map_cons, tget]
    split
    · rename_i e; subst e; rfl
    · exact ih

/-! ## The canonical form -/

theorem tsorted_cons {c : Nat × α} {t : Tab α} :
    tsorted (c :: t) = true ↔ (∀ e ∈ t, c.1 < e.1) ∧ tsorted t = true := by
  induction t generalizing c with
  | nil => simp [tsorted]
  | cons e t ih =>
    simp only [tsorted, Bool.and_eq_true, decide_eq_true_eq, List.mem_cons, forall_eq_or_imp]
    constructor
    · rintro ⟨h, ht⟩
      exact ⟨⟨h, fun x hx => lt_trans h ((ih.1 ht).1 x hx)⟩, ht⟩
    · rintro ⟨⟨h, -⟩, ht⟩
      exact ⟨h, ht⟩

theorem tsorted_terase {t : Tab α} (k : Nat) (h : tsorted t = true) : tsorted (terase t k) = true := by
  induction t with
  | nil => rfl
  | cons c t ih =>
    have h' := tsorted_cons.1 h
    by_cases hc : c.1 = k
    · have : terase (c :: t) k = terase t k := by simp [terase, hc]
      rw [this]; exact ih h'.2
    · have : terase (c :: t) k = c :: terase t k := by simp [terase, hc]
      rw [this]
      exact tsorted_cons.2 ⟨fun e he => h'.1 e (List.mem_of_mem_filter he), ih h'.2⟩

theorem mem_tinsert {t : Tab α} {k : Nat} {v : α} {e : Nat × α} (h : e ∈ tinsert k v t) : e = (k, v) ∨ e ∈ t := by
  induction t with
  | nil => simpa [tinsert] using h
  | cons c t ih =>
    simp only [tinsert] at h
    split at h
    · simpa using h
    · rcases List.mem_cons.1 h with h | h
      · exact .inr (h ▸ List.mem_cons_self ..)
      · exact (ih h).imp id (List.mem_cons_of_mem _)

theorem tsorted_tinsert {t : Tab α} {k : Nat} (v : α) (h : tsorted t = true) (hk : ∀ c ∈ t, c.1 ≠ k) :
    tsorted (tinsert k v t) = true := by
  induction t with
  | nil => rfl
  | cons c t ih =>
    have h' := tsorted_cons.1 h
    simp only [tinsert]
    split
    · rename_i hl
      refine tsorted_cons.2 ⟨fun e he => ?_, h⟩
      rcases List.mem_cons.1 he with rfl | he
      · exact hl
      · exact lt_trans hl (h'.1 e he)
    · rename_i hl
      refine tsorted_cons.2 ⟨fun e he => ?_, ih h'.2 (fun x hx => hk x (List.mem_cons_of_mem _ hx))⟩
      rcases mem_tinsert he with rfl | he
      · exact lt_of_le_of_ne (not_lt.1 hl) (hk c (List.mem_cons_self ..))
      · exact h'.1 e he

/-- Every write keeps the canonical form. -/
theorem twf_tset [DecidableEq α] {t : Tab α} (k : Nat) (v : α) (h : twf d t = true) : twf d (tset d t k v) = true := by
  simp only [twf, Bool.and_eq_true, List.all_eq_true, decide_eq_true_eq] at h ⊢
  have herase : ∀ c ∈ terase t k, c.2 ≠ d := fun c hc => h.2 c (List.mem_of_mem_filter hc)
  unfold tset
  split
  · exact ⟨tsorted_terase k h.1, herase⟩
  · rename_i hv
    refine ⟨tsorted_tinsert v (tsorted_terase k h.1) (terase_ne t k), fun c hc => ?_⟩
    rcases mem_tinsert hc with rfl | hc
    · exact hv
    · exact herase c hc

/-! ## Store memory -/

/-- A write of a byte keeps store memory's canonical form. -/
theorem Memory.wf_writeByte {m : Memory} (a : Nat) (b : Byte) (h : m.wf = true) : (writeByte m a b).wf = true :=
  twf_tset 0 a b h

/-- A byte reads as last written. -/
@[simp] theorem readByte_writeByte_self (m : Memory) (a : Nat) (b : Byte) : readByte (writeByte m a b) a = b :=
  tget_tset_self 0 m a b

/-- A write of a byte leaves every other byte alone. -/
theorem readByte_writeByte_ne (m : Memory) {a i : Nat} (b : Byte) (h : i ≠ a) :
    readByte (writeByte m a b) i = readByte m i := tget_tset_ne 0 m b h

end Sys2Proof.Machine
end

