-- ==== Sys2Proof/Laws/Follows.lean ====
section
/-! SUPPORT. `Follows`: its parts, and one lemma for each shared operation that only works out consequences. -/

namespace Sys2Proof.Machine

/-! ## Reading back -/

@[simp] theorem State.chan_setChan (s : State) (c i : Nat) (ch : Channel) :
    (s.setChan c ch).chan i = if i = c then ch else s.chan i := tget_tset _ _ _ _ _
@[simp] theorem State.chan_modChan (s : State) (c i : Nat) (f : Channel → Channel) :
    (s.modChan c f).chan i = if i = c then f (s.chan c) else s.chan i := tget_tset _ _ _ _ _
@[simp] theorem State.ring_setRing (s : State) (c i : Nat) (r : Ring) :
    (s.setRing c r).ring i = if i = c then r else s.ring i := tget_tset _ _ _ _ _
@[simp] theorem State.ring_modRing (s : State) (c i : Nat) (f : Ring → Ring) :
    (s.modRing c f).ring i = if i = c then f (s.ring c) else s.ring i := tget_tset _ _ _ _ _
@[simp] theorem State.link_setLink (s : State) (m i : Nat) (l : Link) :
    (s.setLink m l).link i = if i = m then l else s.link i := tget_tset _ _ _ _ _
@[simp] theorem State.link_modLink (s : State) (m i : Nat) (f : Link → Link) :
    (s.modLink m f).link i = if i = m then f (s.link m) else s.link i := tget_tset _ _ _ _ _
@[simp] theorem State.clip_setClip (s : State) (h i : Nat) (c : Clip) :
    (s.setClip h c).clip i = if i = h then c else s.clip i := tget_tset _ _ _ _ _
@[simp] theorem State.view_setView (s : State) (v i : Nat) (w : View) :
    (s.setView v w).view i = if i = v then w else s.view i := tget_tset _ _ _ _ _
@[simp] theorem State.volume_setVolume (s : State) (v i : Nat) (w : Volume) :
    (s.setVolume v w).volume i = if i = v then w else s.volume i := tget_tset _ _ _ _ _
@[simp] theorem State.pin_setPin (s : State) (p i : Nat) (q : Pin) :
    (s.setPin p q).pin i = if i = p then q else s.pin i := tget_tset _ _ _ _ _
@[simp] theorem State.entry_setEntry (s : State) (e i : Nat) (o : Option Entry) :
    (s.setEntry e o).entry i = if i = e then o else s.entry i := tget_tset _ _ _ _ _
@[simp] theorem State.context_setContext (s : State) (e i : Nat) (o : Option Context) :
    (s.setContext e o).context i = if i = e then o else s.context i := tget_tset _ _ _ _ _

/-! ## Parts -/

theorem FlagsAdded.refl {n : Nat} (mask a : BitVec n) : FlagsAdded mask a a := ⟨0, by simp⟩

theorem FlagsAdded.trans {n : Nat} {mask a b c : BitVec n} (h : FlagsAdded mask a b) (g : FlagsAdded mask b c) :
    FlagsAdded mask a c := by
  obtain ⟨f, rfl⟩ := h
  obtain ⟨e, rfl⟩ := g
  refine ⟨f ||| e, ?_⟩
  ext i hi
  simp [Bool.and_or_distrib_right, Bool.or_assoc]

/-- Under a wider mask. -/
theorem FlagsAdded.wider {n : Nat} {mask wide a b : BitVec n} (h : FlagsAdded mask a b) (w : mask &&& wide = mask) :
    FlagsAdded wide a b := by
  obtain ⟨f, rfl⟩ := h
  refine ⟨f &&& mask, ?_⟩
  rw [BitVec.and_assoc, w]

theorem Follows.refl (s : State) : Follows s s :=
  ⟨rfl, rfl, rfl, rfl, rfl, rfl, rfl, rfl, fun _ => rfl, fun _ => .inl rfl, fun _ => FlagsAdded.refl _ _, fun _ => rfl,
    fun _ => rfl, fun _ _ => .inl rfl, List.prefix_rfl, List.prefix_rfl⟩

theorem Follows.trans {s t u : State} (a : Follows s t) (b : Follows t u) : Follows s u where
  port := b.port.trans a.port
  map := b.map.trans a.map
  views := b.views.trans a.views
  volumes := b.volumes.trans a.volumes
  time := b.time.trans a.time
  freeDraws := b.freeDraws.trans a.freeDraws
  pending := b.pending.trans a.pending
  pins := b.pins.trans a.pins
  chans c := (b.chans c).trans (a.chans c)
  state c := by
    rcases a.state c with h | ⟨h, h'⟩
    · rcases b.state c with g | ⟨g, g'⟩
      · exact .inl (g.trans h)
      · exact .inr ⟨h ▸ g, g'⟩
    · rcases b.state c with g | ⟨g, g'⟩
      · exact .inr ⟨h, g.trans h'⟩
      · exact .inr ⟨h, g'⟩
  flags c := (a.flags c).trans (b.flags c)
  rings c := (b.rings c).trans (a.rings c)
  links m := (b.links m).trans (a.links m)
  tags m k := by
    have hn : t.now = s.now := congrArg Timebase.house a.time
    rcases a.tags m k with h | ⟨h, c, hc⟩
    · rcases b.tags m k with g | ⟨g, c, hc⟩
      · exact .inl (g.trans h)
      · exact .inr ⟨h ▸ g, c, hn ▸ hc⟩
    · rcases b.tags m k with g | ⟨g, -⟩
      · exact .inr ⟨h, c, g.trans hc⟩
      · rw [hc] at g; cases g
  out := a.out.trans b.out
  handed := a.handed.trans b.handed

theorem Follows.ofSched (s : State) (x : Sched) : Follows s { s with sched := x } :=
  ⟨rfl, rfl, rfl, rfl, rfl, rfl, rfl, rfl, fun _ => rfl, fun _ => .inl rfl, fun _ => FlagsAdded.refl _ _, fun _ => rfl,
    fun _ => rfl, fun _ _ => .inl rfl, List.prefix_rfl, List.prefix_rfl⟩

theorem Follows.ofStore (s : State) (x : Store) (h : x.pins = s.store.pins) : Follows s { s with store := x } :=
  ⟨rfl, rfl, rfl, rfl, rfl, rfl, rfl, h, fun _ => rfl, fun _ => .inl rfl, fun _ => FlagsAdded.refl _ _, fun _ => rfl,
    fun _ => rfl, fun _ _ => .inl rfl, List.prefix_rfl, List.prefix_rfl⟩

theorem Follows.emit (s : State) (o : Output) : Follows s (s.emit o) :=
  ⟨rfl, rfl, rfl, rfl, rfl, rfl, rfl, rfl, fun _ => rfl, fun _ => .inl rfl, fun _ => FlagsAdded.refl _ _, fun _ => rfl,
    fun _ => rfl, fun _ _ => .inl rfl, ⟨[o], rfl⟩, List.prefix_rfl⟩

theorem Follows.replyDetail (s : State) (t : Ticket) (r : Result) (d : BitVec 8) (is : List Item) :
    Follows s (s.replyDetail t r d is) :=
  ⟨rfl, rfl, rfl, rfl, rfl, rfl, rfl, rfl, fun _ => rfl, fun _ => .inl rfl, fun _ => FlagsAdded.refl _ _, fun _ => rfl,
    fun _ => rfl, fun _ _ => .inl rfl, List.prefix_rfl, ⟨[_], rfl⟩⟩

theorem Follows.reply (s : State) (t : Ticket) (r : Result) (is : List Item) : Follows s (s.reply t r is) :=
  Follows.replyDetail s t r 0 is

/-- What a channel record may become by consequences alone. -/
structure ChanFollows (a b : Channel) : Prop where
  kept : b.kept = a.kept
  state : b.state = a.state ∨ (a.state = .cueing ∧ b.state = .cued)
  flags : FlagsAdded cueFlags a.flags b.flags

theorem ChanFollows.refl (a : Channel) : ChanFollows a a := ⟨rfl, .inl rfl, FlagsAdded.refl _ _⟩

theorem Follows.ofChans (s : State) (x : Tab Channel)
    (h : ∀ c, ChanFollows (tget Channel.initial s.chans c) (tget Channel.initial x c)) :
    Follows s { s with chans := x } :=
  ⟨rfl, rfl, rfl, rfl, rfl, rfl, rfl, rfl, fun c => (h c).kept, fun c => (h c).state, fun c => (h c).flags, fun _ => rfl,
    fun _ => rfl, fun _ _ => .inl rfl, List.prefix_rfl, List.prefix_rfl⟩

theorem Follows.modChan (s : State) (c : Nat) (f : Channel → Channel) (h : ChanFollows (s.chan c) (f (s.chan c))) :
    Follows s (s.modChan c f) :=
  Follows.ofChans s _ (fun i => by
    rw [show tget Channel.initial (tset Channel.initial s.chans c (f (s.chan c))) i = _ from tget_tset _ _ _ _ _]
    split
    · rename_i e; subst e; exact h
    · exact ChanFollows.refl _)

theorem Follows.setRing (s : State) (c : Nat) (r : Ring) (h : r.kept = (s.ring c).kept) : Follows s (s.setRing c r) :=
  ⟨rfl, rfl, rfl, rfl, rfl, rfl, rfl, rfl, fun _ => rfl, fun _ => .inl rfl, fun _ => FlagsAdded.refl _ _,
    fun i => by
      rw [State.ring_setRing]
      split
      · rename_i e; subst e; exact h
      · rfl,
    fun _ => rfl, fun _ _ => .inl rfl, List.prefix_rfl, List.prefix_rfl⟩

theorem Follows.modRing (s : State) (c : Nat) (f : Ring → Ring) (h : (f (s.ring c)).kept = (s.ring c).kept) :
    Follows s (s.modRing c f) := Follows.setRing s c _ h

theorem Follows.foldl {α : Type} (f : State → α → State) (h : ∀ s a, Follows s (f s a)) (l : List α) (s : State) :
    Follows s (l.foldl f s) := by
  induction l generalizing s with
  | nil => exact Follows.refl s
  | cons a l ih => exact (h s a).trans (ih _)

theorem Follows.times (f : State → State) (h : ∀ s, Follows s (f s)) (n : Nat) (s : State) : Follows s (times f n s) := by
  induction n generalizing s with
  | zero => exact Follows.refl s
  | succ n ih => exact (h s).trans (ih _)

theorem firstSome_mem {α β : Type} {f : α → Option β} {l : List α} {b : β} (h : firstSome f l = some b) :
    ∃ a ∈ l, f a = some b := by
  induction l with
  | nil => cases h
  | cons a l ih =>
    simp only [firstSome] at h
    split at h
    · rename_i x hx
      exact ⟨a, List.mem_cons_self .., by rw [hx]; exact h⟩
    · obtain ⟨x, hx, e⟩ := ih h
      exact ⟨x, List.mem_cons_of_mem _ hx, e⟩

theorem Follows.ite {p : Prop} [Decidable p] {s a b : State} (ha : Follows s a) (hb : Follows s b) :
    Follows s (if p then a else b) := by split <;> assumption

/-! ## The Read Scheduler -/

theorem tellReferrers_follows (s : State) (id : Nat) (st : ListStatus) : Follows s (tellReferrers s id st) :=
  Follows.ofChans s _ (fun c => by
    rw [tget_tmap _ _ _ _ rfl]
    exact ⟨rfl, .inl rfl, FlagsAdded.refl _ _⟩)

theorem modEntry_follows (s : State) (id : Nat) (f : Entry → Entry) : Follows s (s.modEntry id f) :=
  Follows.ofStore s _ rfl

theorem setEntry_follows (s : State) (id : Nat) (o : Option Entry) : Follows s (s.setEntry id o) :=
  Follows.ofStore s _ rfl

theorem setContext_follows (s : State) (id : Nat) (o : Option Context) : Follows s (s.setContext id o) :=
  Follows.ofSched s _

theorem modContext_follows (s : State) (id : Nat) (f : Context → Context) : Follows s (s.modContext id f) :=
  Follows.ofSched s _

theorem stampEntry_follows (s : State) (id : Nat) : Follows s (stampEntry s id) := Follows.ofStore s _ rfl

theorem stampIfUnused_follows (s : State) (id : Nat) : Follows s (stampIfUnused s id) := by
  unfold stampIfUnused
  split
  · exact (stampEntry_follows s id).ite (Follows.refl s)
  · exact Follows.refl s

theorem returnPages_follows (s : State) (id : Nat) : Follows s (returnPages s id) := by
  unfold returnPages
  split
  · exact Follows.ofStore s _ rfl
  · exact Follows.refl s

theorem freeEntry_follows (s : State) (id : Nat) : Follows s (freeEntry s id) :=
  (returnPages_follows s id).trans (setEntry_follows _ _ _)

theorem dropRead_follows (s : State) (r : UnitRead) : Follows s (dropRead s r) := Follows.ofSched s _

theorem makeRead_follows (s : State) (id i : Nat) (p : Piece) (o : Bool) (m : Nat) :
    Follows s (makeRead s id i p o m) := Follows.ofSched s _

theorem modPiece_follows (s : State) (id i : Nat) (f : FillPiece → FillPiece) : Follows s (modPiece s id i f) :=
  Follows.ofSched s _

theorem makeSet_follows (s : State) (id i : Nat) (p : Piece) : Follows s (makeSet s id i p) :=
  (Follows.foldl _ (fun s m => makeRead_follows s id i p true m) _ s).trans (modPiece_follows _ _ _ _)

theorem gatherOne_follows (s : State) (id i : Nat) : Follows s (gatherOne s id i) := by
  unfold gatherOne
  split
  · split
    · split
      · exact makeSet_follows _ _ _ _
      · exact modPiece_follows _ _ _ _
    · exact Follows.refl s
  · exact Follows.refl s

theorem releaseLoose_follows (s : State) : Follows s (releaseLoose s) := by
  unfold releaseLoose
  split
  · exact gatherOne_follows _ _ _
  · exact Follows.ofSched s _

theorem releaseMany_follows (s : State) (n : Nat) : Follows s (releaseMany s n) :=
  Follows.times _ releaseLoose_follows n s

theorem releaseWithin_follows (s : State) (id : Nat) : Follows s (releaseWithin s id) := by
  unfold releaseWithin
  split
  · split
    · exact gatherOne_follows _ _ _
    · split
      · exact modContext_follows _ _ _
      · exact releaseLoose_follows s
  · exact releaseLoose_follows s

theorem cancelContext_follows (s : State) (id : Nat) (f : Option Context → Option Context) :
    Follows s (cancelContext s id f).1 := Follows.ofSched s _

theorem detachReads_follows (s : State) (id : Nat) : Follows s (detachReads s id) := Follows.ofSched s _

theorem closeContext_follows (s : State) (id : Nat) : Follows s (closeContext s id) :=
  ((cancelContext_follows s id _).trans (detachReads_follows _ _)).trans (releaseMany_follows _ _)

theorem failEntry_follows (s : State) (id : Nat) (r : FailReason) : Follows s (failEntry s id r) :=
  ((((returnPages_follows s id).trans (modEntry_follows _ _ _)).trans (tellReferrers_follows _ _ _)).trans
    (closeContext_follows _ _)).trans (stampIfUnused_follows _ _)

theorem convert_follows (s : State) (id i own : Nat) : Follows s (convert s id i own) := by
  unfold convert
  split
  · dsimp only
    split
    · exact (Follows.ofSched s _).trans (makeSet_follows _ _ _ _)
    · exact Follows.ofSched s _
  · exact Follows.refl s

theorem handOne_follows {s t : State} {id : Nat} (h : handOne s id = some t) : Follows s t := by
  unfold handOne at h
  repeat' (first | split at h | dsimp only at h)
  all_goals first
    | (cases h; done)
    | (simp only [Option.some.injEq] at h; subst h)
  all_goals first
    | exact failEntry_follows _ _ _
    | exact convert_follows _ _ _ _
    | exact (modContext_follows _ _ _).trans (makeSet_follows _ _ _ _)
    | exact (((modContext_follows _ _ _).trans (makeRead_follows _ _ _ _ _ _)).trans (modPiece_follows _ _ _ _))

theorem spillReserve_follows {s t : State} {id : Nat} (h : spillReserve s id = some t) : Follows s t := by
  unfold spillReserve at h
  split at h
  · cases h
  · split at h
    · cases h
    · simp only [Option.some.injEq] at h; subst h
      exact (modContext_follows _ _ _).trans (releaseMany_follows _ _)

theorem handStep_follows {s t : State} (h : handStep s = some t) : Follows s t := by
  obtain ⟨c, -, hc⟩ := firstSome_mem h
  split at hc
  · rename_i s' hs
    simp only [Option.some.injEq] at hc; subst hc
    exact handOne_follows hs
  · exact spillReserve_follows hc

theorem placeData_follows (s : State) (id : Nat) (x : Bool) (d : List Byte) (xs : List Extract) :
    Follows s (placeData s id x d xs) := by
  unfold placeData
  split
  · exact Follows.ofStore s _ rfl
  · exact Follows.refl s

theorem readyEntry_follows (s : State) (id : Nat) : Follows s (readyEntry s id) :=
  (((modEntry_follows _ _ _).trans (tellReferrers_follows _ _ _)).trans (closeContext_follows _ _)).trans
    (stampIfUnused_follows _ _)

theorem completePiece_follows (s : State) (id : Nat) : Follows s (completePiece s id) := by
  unfold completePiece
  dsimp only
  split
  · split
    · exact (modEntry_follows _ _ _).trans (readyEntry_follows _ _)
    · exact modEntry_follows _ _ _
  · exact modEntry_follows _ _ _

theorem readOk_follows (s : State) (r : UnitRead) (q : FillPiece) (d : List Byte) : Follows s (readOk s r q d) := by
  unfold readOk
  split
  · dsimp only
    split
    · exact (((placeData_follows _ _ _ _ _).trans (modPiece_follows _ _ _ _)).trans (releaseWithin_follows _ _)).trans
        (completePiece_follows _ _)
    · exact ((placeData_follows _ _ _ _ _).trans (modPiece_follows _ _ _ _)).trans (releaseWithin_follows _ _)
  · exact (((placeData_follows _ _ _ _ _).trans (modPiece_follows _ _ _ _)).trans (releaseWithin_follows _ _)).trans
      (completePiece_follows _ _)

theorem readLost_follows (s : State) (r : UnitRead) (q : FillPiece) : Follows s (readLost s r q) :=
  (convert_follows _ _ _ _).ite ((failEntry_follows _ _ _).trans (releaseMany_follows _ _))

/-- The end of a read at the Read Scheduler touches no link, no record of a channel but its list. -/
theorem readEnded_follows (s : State) (m k : Nat) (how : ReadEnd) : Follows s (readEnded s m k how) := by
  unfold readEnded
  split
  · exact Follows.refl s
  · rename_i r _
    refine (dropRead_follows s r).trans ?_
    dsimp only
    split
    · exact releaseMany_follows _ _
    · split
      · exact releaseMany_follows _ _
      · split
        · split
          · exact ((releaseMany_follows _ _).trans (setContext_follows _ _ _)).trans (freeEntry_follows _ _)
          · exact releaseMany_follows _ _
        · split
          · exact releaseMany_follows _ _
          · cases how
            · exact readOk_follows _ _ _ _
            · exact readLost_follows _ _ _

theorem loseQueued_follows (s : State) (r : UnitRead) : Follows s (loseQueued s r) := by
  unfold loseQueued
  refine (dropRead_follows s r).trans ?_
  dsimp only
  split
  · exact (convert_follows _ _ _ _).ite ((failEntry_follows _ _ _).trans (releaseMany_follows _ _))
  · exact releaseMany_follows _ _

theorem loseQueue_follows (m n : Nat) (s : State) : Follows s (loseQueue m n s) := by
  induction n generalizing s with
  | zero => exact Follows.refl s
  | succ n ih =>
    unfold loseQueue
    split
    · exact (loseQueued_follows _ _).trans (ih _)
    · exact Follows.refl s

theorem failConverting_follows (s : State) (m : Nat) : Follows s (failConverting s m) :=
  Follows.foldl _ (fun _ _ => (failEntry_follows _ _ _).ite (Follows.refl _)) _ s

theorem leaveOnline_follows (s : State) (m : Nat) : Follows s (leaveOnline s m) :=
  (loseQueue_follows _ _ _).trans (failConverting_follows _ _)

theorem freeTag_free {l : Link} {t : Nat} (h : l.freeTag = some t) : tget TagState.free l.tags t = .free := by
  unfold Link.freeTag at h
  obtain ⟨x, hx, rfl⟩ := Option.map_eq_some_iff.1 h
  have h1 := List.mem_of_find?_eq_some hx
  have h2 := List.find?_some hx
  simp only [Link.tagList, List.mem_map] at h1
  obtain ⟨k, -, rfl⟩ := h1
  simpa using h2

theorem takeTag_follows (s : State) (m k : Nat) (c : Class) (h : tget TagState.free (s.link m).tags k = .free) :
    Follows s (s.modLink m (fun l => { l with
      tags := tset TagState.free l.tags k (.busy (s.now + Config.readTicks) c) })) := by
  refine ⟨rfl, rfl, rfl, rfl, rfl, rfl, rfl, rfl, fun _ => rfl, fun _ => .inl rfl, fun _ => FlagsAdded.refl _ _,
    fun _ => rfl, fun i => ?_, fun i j => ?_, List.prefix_rfl, List.prefix_rfl⟩
  · rw [State.link_modLink]
    split
    · rename_i e; subst e; rfl
    · rfl
  · unfold TagFollows State.tag
    rw [State.link_modLink]
    split
    · rename_i e; subst e
      dsimp only
      by_cases e : j = k
      · subst e
        exact .inr ⟨h, c, tget_tset_self _ _ _ _⟩
      · exact .inl (tget_tset_ne _ _ _ e)
    · exact .inl rfl

theorem issueOne_follows {s t : State} {m : Nat} (h : issueOne s m = some t) : Follows s t := by
  unfold issueOne at h
  split at h
  · rename_i r k _ hk
    split at h
    · cases h
    · split at h
      · cases h
      · simp only [Option.some.injEq] at h
        subst h
        have key : ∀ (x : Sched) (c : Class) (o : Output),
            Follows s ((State.modLink { s with sched := x } m (fun l =>
              { l with tags := tset TagState.free l.tags k (.busy (s.now + Config.readTicks) c) })).emit o) := fun x c o =>
          ((Follows.ofSched s x).trans (takeTag_follows _ m k c (freeTag_free hk))).trans (Follows.emit _ o)
        exact key _ _ _
  · cases h

theorem issueStep_follows {s t : State} (h : issueStep s = some t) : Follows s t := by
  obtain ⟨m, -, hm⟩ := firstSome_mem h
  exact issueOne_follows hm

/-! ## The Frame Store -/

theorem reclaimOne_follows (s : State) : Follows s (reclaimOne s) := by
  unfold reclaimOne
  split
  · exact freeEntry_follows _ _
  · exact Follows.refl s

theorem judged_follows (s : State) (c : Nat) : Follows s (s.modChan c Channel.judged) :=
  Follows.modChan s c _ ⟨rfl, .inl rfl, FlagsAdded.refl _ _⟩

theorem endOverload_follows (s : State) : Follows s (endOverload s) :=
  (Follows.ofStore s { s.store with overload := false } rfl).trans
    (Follows.foldl _ (fun s (c : Nat × Channel) => judged_follows s c.1) s.chans _)

theorem judgeOverload_follows {s t : State} (h : judgeOverload s = some t) : Follows s t := by
  unfold judgeOverload at h
  dsimp only at h
  repeat' (split at h)
  all_goals first
    | (cases h; done)
    | (simp only [Option.some.injEq] at h; subst h; first | exact endOverload_follows s | exact Follows.ofStore s _ rfl)

theorem overloadJudged_follows (s : State) : Follows s (overloadJudged s) := by
  unfold overloadJudged
  cases h : judgeOverload s with
  | none => exact Follows.refl s
  | some t => exact judgeOverload_follows h

theorem freeRecord_follows (s : State) : Follows s (freeRecord s).1 := by
  unfold freeRecord
  dsimp only
  split
  · exact Follows.refl s
  · exact reclaimOne_follows s

theorem findOrAdmit_follows (s : State) (k : Key) (v : Nat) (l : Location) : Follows s (findOrAdmit s k v l).1 := by
  unfold findOrAdmit
  split
  · exact Follows.refl s
  · exact ((freeRecord_follows s).trans (setEntry_follows _ _ _)).trans (Follows.ofStore _ _ rfl)

theorem addRef_follows (s : State) (id : Nat) : Follows s (addRef s id) :=
  (modEntry_follows _ _ _).trans (overloadJudged_follows _)
theorem addPin_follows (s : State) (id : Nat) : Follows s (addPin s id) :=
  (modEntry_follows _ _ _).trans (overloadJudged_follows _)
theorem addHold_follows (s : State) (id : Nat) : Follows s (addHold s id) := modEntry_follows _ _ _

theorem abandon_follows (s : State) (id : Nat) : Follows s (abandon s id) := by
  have h : ∀ f n, Follows s (releaseMany (cancelContext (returnPages s id) id f).1 n) := fun f n =>
    ((returnPages_follows s id).trans (cancelContext_follows _ id f)).trans (releaseMany_follows _ n)
  unfold abandon
  dsimp only
  split
  · exact (h _ _).trans ((setContext_follows _ _ _).trans (freeEntry_follows _ _))
  · exact (h _ _).trans (modEntry_follows _ _ _)

theorem settlePlace_follows (s : State) (id : Nat) : Follows s (settlePlace s id) := by
  unfold settlePlace
  split
  · exact Follows.refl s
  · split
    · exact ((abandon_follows _ _).ite (freeEntry_follows _ _)).ite (Follows.refl s)
    · exact Follows.refl s
    · exact ((freeEntry_follows _ _).ite (stampEntry_follows _ _)).ite (Follows.refl s)

theorem lowerCount_follows (s : State) (id : Nat) (f : Entry → Entry) : Follows s (lowerCount s id f) :=
  ((modEntry_follows _ _ _).trans (settlePlace_follows _ _)).trans (overloadJudged_follows _)

theorem releaseRef_follows (s : State) (id : Nat) : Follows s (releaseRef s id) := lowerCount_follows _ _ _
theorem releasePin_follows (s : State) (id : Nat) : Follows s (releasePin s id) := lowerCount_follows _ _ _
theorem releaseHold_follows (s : State) (id : Nat) : Follows s (releaseHold s id) := lowerCount_follows _ _ _

theorem reclaimFor_follows (need n : Nat) (s : State) : Follows s (reclaimFor need n s) := by
  induction n generalizing s with
  | zero => exact Follows.refl s
  | succ n ih =>
    unfold reclaimFor
    split
    · exact (reclaimOne_follows s).trans (ih _)
    · exact Follows.refl s

theorem makeGrant_follows (s : State) (id : Nat) (e : Entry) (ks : List FillPiece) (a : Nat) :
    Follows s (makeGrant s id e ks a) := by
  have h : ∀ (s1 : State) (o : Option Entry) (x : Store) (y : Sched) (c : Option Context) (st : ListStatus),
      x.pins = s1.store.pins →
      Follows s1 (tellReferrers (State.setContext { s1.setEntry id o with store := x, sched := y } id c) id st) :=
    fun s1 o x y c st hx =>
      (((setEntry_follows s1 id o).trans (Follows.ofStore _ x hx)).trans (Follows.ofSched _ y)).trans
        ((setContext_follows _ id c).trans (tellReferrers_follows _ id st))
  exact (reclaimFor_follows e.pageNeed s.store.entries.length s).trans (h _ _ _ _ _ _ rfl)

theorem failWaiting_follows (s : State) (id : Nat) : Follows s (failWaiting s id) :=
  ((modEntry_follows _ _ _).trans (tellReferrers_follows _ _ _)).trans (stampIfUnused_follows _ _)

theorem grantHead_follows {s t : State} (h : grantHead s = some t) : Follows s t := by
  unfold grantHead at h
  repeat' (first | split at h | dsimp only at h)
  all_goals first
    | (cases h; done)
    | (simp only [Option.some.injEq] at h; subst h)
  all_goals first
    | exact failWaiting_follows _ _
    | exact modEntry_follows _ _ _
    | exact makeGrant_follows _ _ _ _ _

theorem retryEntry_follows (s : State) (id : Nat) (e : Entry) : Follows s (retryEntry s id e) := by
  unfold retryEntry
  split
  · exact (setEntry_follows _ _ _).trans (Follows.ofStore _ _ rfl)
  · exact Follows.refl s

theorem retryOne_follows (s : State) (x : Nat × Entry) : Follows s (retryOne s x) := by
  unfold retryOne
  exact (Follows.refl s).ite ((freeEntry_follows _ _).ite ((retryEntry_follows _ _ _).ite (Follows.refl s)))

theorem memberOnline_follows (s : State) : Follows s (memberOnline s) :=
  Follows.foldl _ retryOne_follows _ s

theorem forgetVolume_follows (s : State) (v : Nat) : Follows s (forgetVolume s v) := Follows.ofStore s _ rfl

theorem orphanWhere_follows (s : State) (f : Key → Bool) : Follows s (orphanWhere s f) := Follows.ofStore s _ rfl

/-! ## The read-ahead list -/

theorem releaseEntries_follows (s : State) (es : List ListEntry) : Follows s (releaseEntries s es) :=
  Follows.foldl _ (fun s e => by
    split
    · exact releaseRef_follows _ _
    · exact Follows.refl s) _ s

theorem setList_follows (s : State) (c : Nat) (l : List ListEntry) : Follows s (setList s c l) :=
  Follows.modChan s c _ ⟨rfl, .inl rfl, FlagsAdded.refl _ _⟩

theorem modList_follows (s : State) (c i : Nat) (f : ListEntry → ListEntry) : Follows s (modList s c i f) :=
  Follows.modChan s c _ ⟨rfl, .inl rfl, FlagsAdded.refl _ _⟩

theorem recompute_follows (s : State) (c : Nat) (k : Recompute) (n : Word32) : Follows s (recompute s c k n) :=
  (setList_follows _ _ _).trans (releaseEntries_follows _ _)

theorem releaseList_follows (s : State) (c : Nat) : Follows s (releaseList s c) :=
  (setList_follows _ _ _).trans (releaseEntries_follows _ _)

theorem dropPassed_follows (s : State) (c : Nat) (n : Word32) : Follows s (dropPassed s c n) :=
  (setList_follows _ _ _).trans (releaseEntries_follows _ _)

theorem reresolveGroup_follows (s : State) (c g : Nat) : Follows s (reresolveGroup s c g) :=
  (Follows.modChan s c _ ⟨rfl, .inl rfl, FlagsAdded.refl _ _⟩).trans (releaseEntries_follows _ _)

theorem resolveAt_follows (s : State) (c i : Nat) : Follows s (resolveAt s c i) := by
  unfold resolveAt
  dsimp only
  split
  · exact Follows.refl s
  · split
    · split
      · exact modList_follows _ _ _ _
      · exact ((findOrAdmit_follows _ _ _ _).trans (addRef_follows _ _)).trans (modList_follows _ _ _ _)
    · exact modList_follows _ _ _ _

theorem resolveStep_follows {s t : State} (h : resolveStep s = some t) : Follows s t := by
  obtain ⟨c, -, hc⟩ := firstSome_mem h
  obtain ⟨i, -, rfl⟩ := Option.map_eq_some_iff.1 hc
  exact resolveAt_follows _ _ _

theorem extendOne_follows {s t : State} {c : Nat} {ch : Channel} (h : extendOne s c ch = some t) : Follows s t := by
  unfold extendOne at h
  split at h
  · obtain ⟨d, -, rfl⟩ := Option.map_eq_some_iff.1 h
    exact setList_follows _ _ _
  · cases h

theorem extendFor_follows (c n : Nat) (s : State) : Follows s (extendFor c n s) := by
  induction n generalizing s with
  | zero => exact Follows.refl s
  | succ n ih =>
    unfold extendFor
    split
    · rename_i t ht
      exact (extendOne_follows ht).trans (ih t)
    · exact Follows.refl s

theorem extendStep_follows {s t : State} (h : extendStep s = some t) : Follows s t := by
  obtain ⟨c, -, hc⟩ := firstSome_mem h
  exact extendOne_follows hc

theorem refreshUrgency_follows (s : State) : Follows s (refreshUrgency s) := by
  have key : ∀ (x : Store) (y : Sched), x.pins = s.store.pins → Follows s { s with store := x, sched := y } :=
    fun x y h => (Follows.ofStore s x h).trans (Follows.ofSched _ y)
  exact key _ _ (by rfl)

/-! ## The Delivery Engine -/

theorem publishOne_follows (c : Nat) (s : State) : Follows s (publishOne c s) := by
  unfold publishOne
  dsimp only
  exact (Follows.setRing s c _ (by rfl)).trans (Follows.emit _ _)

theorem writeNoData_follows (s : State) (c : Nat) (d : Record) : Follows s (writeNoData s c d) := by
  have h : ∀ (r : Ring) (o : Output), r.kept = (s.ring c).kept → Follows s ((s.setRing c r).emit o) := fun r o hr =>
    (Follows.setRing s c r hr).trans (Follows.emit _ o)
  unfold writeNoData
  dsimp only
  split
  · exact h _ _ (by rfl)
  · exact (h _ _ (by rfl)).trans (publishOne_follows _ _)

theorem markWritten_follows (s : State) (c : Nat) (n : Word32) : Follows s (markWritten s c n) :=
  Follows.modChan s c _ ⟨rfl, .inl rfl, FlagsAdded.refl _ _⟩

theorem writeRepeat_follows (s : State) (c : Nat) (e : ListEntry) (p : Cursor) : Follows s (writeRepeat s c e p) := by
  unfold writeRepeat
  exact (writeNoData_follows _ _ _).trans (markWritten_follows _ _ _)

theorem writeMiss_follows (s : State) (c : Nat) (r : MissReason) (p : Cursor) : Follows s (writeMiss s c r p) := by
  unfold writeMiss
  exact (writeNoData_follows _ _ _).trans (markWritten_follows _ _ _)

theorem writeRevoke_follows (s : State) (c : Nat) (v : Revoke) : Follows s (writeRevoke s c v) := by
  unfold writeRevoke
  dsimp only
  exact (writeNoData_follows _ _ _).trans (Follows.modRing _ _ _ (by rfl))

theorem beginTransfer_follows (s : State) (c id : Nat) (x : Entry) (p : Cursor) :
    Follows s (beginTransfer s c id x p) := by
  unfold beginTransfer
  dsimp only
  exact ((Follows.setRing s c _ (by rfl)).trans (addHold_follows _ _)).trans (markWritten_follows _ _ _)

theorem beginIfReady_follows {s t : State} {c : Nat} {e : ListEntry} {p : Cursor} (h : beginIfReady s c e p = some t) :
    Follows s t := by
  unfold beginIfReady at h
  split at h
  · obtain ⟨x, -, rfl⟩ := Option.map_eq_some_iff.1 h
    exact beginTransfer_follows _ _ _ _ _
  · cases h

theorem deliverPeriod_follows {s t : State} {c : Nat} (h : deliverPeriod s c = some t) : Follows s t := by
  unfold deliverPeriod at h
  dsimp only at h
  repeat' (split at h)
  all_goals first
    | (cases h; done)
    | (simp only [Option.some.injEq] at h; subst h; exact writeRepeat_follows _ _ _ _)
    | exact beginIfReady_follows h

theorem deliverOne_follows {s t : State} {c : Nat} (h : deliverOne s c = some t) : Follows s t := by
  unfold deliverOne at h
  dsimp only at h
  repeat' (split at h)
  all_goals first
    | (cases h; done)
    | (simp only [Option.some.injEq] at h; subst h; exact writeRevoke_follows _ _ _)
    | exact deliverPeriod_follows h

theorem deliverStep_follows {s t : State} (h : deliverStep s = some t) : Follows s t := by
  obtain ⟨c, -, hc⟩ := firstSome_mem h
  exact deliverOne_follows hc

/-! ## Cues -/

theorem completeCue_follows (s : State) (c : Nat) (short : Bool) (n : Nat) (h : (s.chan c).state = .cueing) :
    Follows s (completeCue s c short n) := by
  unfold completeCue
  have key : ∀ s1 : State, s1.chan c = s.chan c → Follows s1 (s1.modChan c (fun ch => { ch with
      state := .cued, cue := none, cueExpiry := none
      flags := ch.flags ||| ChanFlag.cued ||| flagIf short ChanFlag.short })) := fun s1 e =>
    Follows.modChan s1 c _ ⟨rfl, .inr ⟨by rw [e, h], rfl⟩, ⟨ChanFlag.cued ||| flagIf short ChanFlag.short, by
      have hm : (ChanFlag.cued ||| flagIf short ChanFlag.short) &&& cueFlags =
          ChanFlag.cued ||| flagIf short ChanFlag.short := by cases short <;> decide
      rw [hm, BitVec.or_assoc]⟩⟩
  dsimp only
  split
  · exact (Follows.reply _ _ _ _).trans (key _ rfl)
  · exact key s rfl

theorem cueOne_follows {s t : State} {c : Nat} (h : cueOne s c (s.chan c) = some t) : Follows s t := by
  unfold cueOne at h
  split at h
  · rename_i hc
    simp only [Option.some.injEq] at h
    subst h
    exact completeCue_follows _ _ _ _ hc.1
  · cases h

theorem cueStep_follows {s t : State} (h : cueStep s = some t) : Follows s t := by
  obtain ⟨c, -, hc⟩ := firstSome_mem h
  exact cueOne_follows hc

/-! ## All consequences -/

theorem orStep_follows {a b : State → Option State} (ha : ∀ {s t}, a s = some t → Follows s t)
    (hb : ∀ {s t}, b s = some t → Follows s t) {s t : State} (h : orStep a b s = some t) : Follows s t := by
  unfold orStep at h
  split at h
  · rename_i x hx
    simp only [Option.some.injEq] at h
    subst h
    exact ha hx
  · exact hb h

theorem settleStep_follows {s t : State} (h : settleStep s = some t) : Follows s t :=
  orStep_follows handStep_follows (orStep_follows judgeOverload_follows (orStep_follows grantHead_follows
    (orStep_follows resolveStep_follows (orStep_follows extendStep_follows (orStep_follows cueStep_follows
      (orStep_follows deliverStep_follows issueStep_follows)))))) h

theorem settleFor_follows (n : Nat) (s : State) : Follows s (settleFor n s) := by
  induction n generalizing s with
  | zero => exact Follows.refl s
  | succ n ih =>
    unfold settleFor
    dsimp only
    split
    · rename_i t ht
      exact ((refreshUrgency_follows s).trans (settleStep_follows ht)).trans (ih t)
    · exact refreshUrgency_follows s

/-- All that the consequences of an event may do. -/
theorem settle_follows (s : State) : Follows s (settle s) := settleFor_follows _ s

end Sys2Proof.Machine
end

