-- ==== Sys2Proof/Laws/Event.lean ====
section
/-! SUPPORT. The end of an event: what `endEvent` leaves as the command's own effect put it, and that every answer handed over
is written. -/

namespace Sys2Proof.Machine

/-! ## Conditions -/

theorem applyChanConditions_get (p : Port) (was now : Tab Channel) (c : Nat) :
    ∃ f, tget Channel.initial (applyChanConditions p was now) c =
      { tget Channel.initial now c with flags := (tget Channel.initial now c).flags ||| (f &&& lateFlags) } := by
  have key : ∀ (l : List Nat) (g : Nat → BitVec 7) (hg : ∀ i, g i &&& lateFlags = g i) (t : Tab Channel),
      ∃ f, tget Channel.initial (l.foldl (fun t c =>
          if g c = 0 then t else tmod Channel.initial t c (fun ch => { ch with flags := ch.flags ||| g c })) t) c =
        { tget Channel.initial t c with flags := (tget Channel.initial t c).flags ||| (f &&& lateFlags) } := by
    intro l g hm
    induction l with
    | nil => exact fun t => ⟨0, by simp⟩
    | cons i l ih =>
      intro t
      obtain ⟨f, hf⟩ := ih (if g i = 0 then t else tmod Channel.initial t i (fun ch => { ch with flags := ch.flags ||| g i }))
      rw [List.foldl_cons, hf]
      by_cases hg : g i = 0
      · exact ⟨f, by rw [if_pos hg]⟩
      · rw [if_neg hg]
        by_cases hi : c = i
        · subst hi
          refine ⟨g c ||| f, ?_⟩
          have h1 : (g c ||| f) &&& lateFlags = g c ||| (f &&& lateFlags) := by
            have h2 : (g c ||| f) &&& lateFlags = (g c &&& lateFlags) ||| (f &&& lateFlags) := by
              ext i hi
              simp [Bool.and_or_distrib_right]
            rw [h2, hm]
          simp only [tmod, tget_tset_self, h1, BitVec.or_assoc]
        · exact ⟨f, by rw [tmod, tget_tset_ne _ _ _ hi]⟩
  refine key _ _ (fun i => ?_) _
  unfold conditionBits flagIf
  split <;> split <;> decide

theorem partConditionBits_late (s0 s : State) : partConditionBits s0 s &&& latePartFlags = partConditionBits s0 s := by
  unfold partConditionBits flagIf
  split <;> split <;> decide

/-! ## Answers -/

theorem insertBy_perm {α : Type} (lt : α → α → Bool) (a : α) (l : List α) : (insertBy lt a l).Perm (a :: l) := by
  induction l with
  | nil => exact List.Perm.refl _
  | cons b l ih =>
    simp only [insertBy]
    split
    · exact List.Perm.refl _
    · exact (List.Perm.cons b ih).trans (List.Perm.swap a b l)

theorem sortBy_perm {α : Type} (lt : α → α → Bool) (l : List α) : (sortBy lt l).Perm l := by
  have key : ∀ (l acc : List α), (l.foldl (fun acc a => insertBy lt a acc) acc).Perm (l ++ acc) := by
    intro l
    induction l with
    | nil => exact fun acc => List.Perm.refl _
    | cons a l ih =>
      intro acc
      refine (ih _).trans ?_
      exact ((insertBy_perm lt a acc).append_left l).trans (List.perm_middle)
  unfold sortBy
  simpa using key l []

/-- The writing of answers: what it changes, and that each answer is among the outputs it adds. -/
theorem writeAnswers_fold (l : List Handed) (s : State) :
    ∃ a v st o, l.foldl writeAnswer s = { s with
        port := { s.port with produced := a, reserved := v, state := st }, out := s.out ++ o } ∧
      (st = s.port.state ∨ (s.port.state = .stopping ∧ st = .disabled)) ∧
      ∀ h ∈ l, ∃ x w, Output.answer x (h.answer w) ∈ o := by
  induction l generalizing s with
  | nil => exact ⟨s.port.produced, s.port.reserved, s.port.state, [], by simp, .inl rfl, by simp⟩
  | cons x l ih =>
    obtain ⟨a, v, st, o, h1, h3, h2⟩ := ih (writeAnswer s x)
    refine ⟨a, v, st, .answer (answerAddress s.port) (x.answer (statusWord s.port s.chans)) :: o, ?_, ?_, ?_⟩
    · rw [List.foldl_cons, h1]
      simp [writeAnswer, State.emit]
    · have h4 : (writeAnswer s x).port.state =
          if s.port.state = .stopping ∧ s.port.reserved - 1 = 0 then .disabled else s.port.state := rfl
      rw [h4] at h3
      split at h3
      · rename_i h5
        rcases h3 with h3 | ⟨h3, -⟩
        · exact .inr ⟨h5.1, h3⟩
        · cases h3
      · exact h3
    · intro h hm
      rcases List.mem_cons.1 hm with rfl | hm
      · exact ⟨_, _, List.mem_cons_self ..⟩
      · obtain ⟨y, w, hy⟩ := h2 h hm
        exact ⟨y, w, List.mem_cons_of_mem _ hy⟩

/-! ## The end of an event -/

/-- What the end of an event leaves as the command's own effect put it, and what it adds. -/
structure Ends (s t : State) : Prop where
  map : t.map = s.map
  views : t.views = s.views
  volumes : t.volumes = s.volumes
  time : t.time = s.time
  freeDraws : t.freeDraws = s.freeDraws
  pending : t.pending = s.pending
  pins : t.store.pins = s.store.pins
  chans : ∀ c, (t.chan c).kept = (s.chan c).kept
  state : ∀ c, (t.chan c).state = (s.chan c).state ∨ ((s.chan c).state = .cueing ∧ (t.chan c).state = .cued)
  flags : ∀ c, FlagsAdded lateFlags (s.chan c).flags (t.chan c).flags
  rings : ∀ c, (t.ring c).kept = (s.ring c).kept
  links : ∀ m, (t.link m).kept = (s.link m).kept
  tags : ∀ m k, TagFollows s t m k
  out : s.out <+: t.out
  answered : ∀ h ∈ s.handed, ∃ a st, Output.answer a (h.answer st) ∈ t.out.drop s.out.length
  head : t.port.head = s.port.head
  reqBase : t.port.reqBase = s.port.reqBase
  reqSize : t.port.reqSize = s.port.reqSize
  reqTail : t.port.reqTail = s.port.reqTail
  ansBase : t.port.ansBase = s.port.ansBase
  ansSize : t.port.ansSize = s.port.ansSize
  ansHead : t.port.ansHead = s.port.ansHead
  clearWait : t.port.clearWait = s.port.clearWait
  enables : t.port.enables = s.port.enables
  overloadMode : t.port.overloadMode = s.port.overloadMode
  refLostMode : t.port.refLostMode = s.port.refLostMode
  chanNotices : t.port.chanNotices = s.port.chanNotices
  taken : t.port.taken = s.port.taken
  partFlags : FlagsAdded latePartFlags s.port.flags t.port.flags
  portState : t.port.state = s.port.state ∨ (s.port.state = .stopping ∧ t.port.state = .disabled)
  hand : t.port.hand = s.port.hand ∨ (s.port.hand = .idle ∧ t.port.hand = .reading)

/-- What starts of reads and the end of an event leave alone of the records. -/
theorem startRead_eq (s : State) :
    startRead s = s ∨ (s.port.hand = .idle ∧
      startRead s = { s.emit (.readHost (requestAddress s.port) 64) with port := { s.port with hand := .reading } }) := by
  unfold startRead
  dsimp only
  split
  · rename_i h; exact .inr ⟨h.2.1, rfl⟩
  · exact .inl rfl

/-- The end of an event, from the state its consequences leave. -/
theorem finish_eq (s0 s : State) :
    ∃ x o, finish s0 s = { writeAnswers (applyConditions s0 s) with
      port := { (writeAnswers (applyConditions s0 s)).port with lineActive := x }
      out := (writeAnswers (applyConditions s0 s)).out ++ o } := by
  generalize hg : writeAnswers (applyConditions s0 s) = t
  unfold finish
  rw [hg]
  unfold writePortRecord judgeLine
  dsimp only
  split <;> split
  · exact ⟨t.port.lineActive, [_], rfl⟩
  · exact ⟨_, [_, _], by simp only [State.emit, List.append_assoc, List.cons_append, List.nil_append]; rfl⟩
  · exact ⟨t.port.lineActive, [], by simp⟩
  · exact ⟨_, [_], rfl⟩

/-- All that the end of an event may do. -/
theorem endEvent_ends (s0 s : State) : Ends s (endEvent s0 s) := by
  have hs := settle_follows s
  unfold endEvent
  generalize settle s = q at hs ⊢
  obtain ⟨x, o3, hf⟩ := finish_eq s0 q
  rw [hf]
  generalize hg : applyConditions s0 q = g
  have hgc : ∀ c, ∃ f, g.chan c = { q.chan c with flags := (q.chan c).flags ||| (f &&& lateFlags) } := by
    intro c
    rw [← hg]
    exact applyChanConditions_get _ _ _ _
  obtain ⟨pf, hg⟩ : ∃ pf, g = { q with
      port := { q.port with flags := q.port.flags ||| (pf &&& latePartFlags) }, chans := g.chans } := by
    refine ⟨partConditionBits s0 q, ?_⟩
    rw [partConditionBits_late, ← hg]
    rfl
  obtain ⟨a, v, st, o2, hw, hst, ha⟩ := writeAnswers_fold (sortBy (fun a b => decide (a.ticket.seq < b.ticket.seq)) g.handed) g
  have hw' : writeAnswers g = { g with
      port := { g.port with produced := a, reserved := v, state := st }, out := g.out ++ o2, handed := [] } := by
    unfold writeAnswers
    rw [hw]
  rw [hw']
  have hsub : ∀ h ∈ s.handed, ∃ x w, Output.answer x (h.answer w) ∈ o2 := fun h hm =>
    ha h ((sortBy_perm _ _).mem_iff.2 (by rw [hg]; exact hs.handed.subset hm))
  clear ha hw hw' hf
  have hc : ∀ c, tget Channel.initial g.chans c = g.chan c := fun _ => rfl
  generalize g.chans = gc at hg hgc
  subst hg
  generalize hz : ({ q with
      port := { q.port with flags := q.port.flags ||| (pf &&& latePartFlags), produced := a, reserved := v, state := st, lineActive := x }
      chans := gc, out := q.out ++ o2 ++ o3, handed := [] } : State) = z
  obtain ⟨hd, o1, hr, hh⟩ : ∃ hd o1, startRead z = { z with port := { z.port with hand := hd }, out := z.out ++ o1 } ∧
      (hd = z.port.hand ∨ (z.port.hand = .idle ∧ hd = .reading)) := by
    rcases startRead_eq z with h | ⟨hi, h⟩
    · exact ⟨z.port.hand, [], by rw [h]; simp, .inl rfl⟩
    · exact ⟨.reading, [_], by rw [h]; rfl, .inr ⟨hi, rfl⟩⟩
  show Ends s (startRead z)
  rw [hr]
  subst hz
  refine ⟨hs.map, hs.views, hs.volumes, hs.time, hs.freeDraws, hs.pending, hs.pins, fun c => ?_, fun c => ?_,
    fun c => ?_, hs.rings, hs.links, hs.tags, ?_, fun h hm => ?_, (congrArg Port.head hs.port : q.port.head = s.port.head),
    (congrArg Port.reqBase hs.port : q.port.reqBase = s.port.reqBase), (congrArg Port.reqSize hs.port : q.port.reqSize = s.port.reqSize), (congrArg Port.reqTail hs.port : q.port.reqTail = s.port.reqTail),
    (congrArg Port.ansBase hs.port : q.port.ansBase = s.port.ansBase), (congrArg Port.ansSize hs.port : q.port.ansSize = s.port.ansSize), (congrArg Port.ansHead hs.port : q.port.ansHead = s.port.ansHead),
    (congrArg Port.clearWait hs.port : q.port.clearWait = s.port.clearWait), (congrArg Port.enables hs.port : q.port.enables = s.port.enables), (congrArg Port.overloadMode hs.port : q.port.overloadMode = s.port.overloadMode),
    (congrArg Port.refLostMode hs.port : q.port.refLostMode = s.port.refLostMode), (congrArg Port.chanNotices hs.port : q.port.chanNotices = s.port.chanNotices), (congrArg Port.taken hs.port : q.port.taken = s.port.taken), ?_, ?_, ?_⟩
  · obtain ⟨f, hf⟩ := hgc c
    exact (congrArg Channel.kept hf).trans (hs.chans c)
  · obtain ⟨f, hf⟩ := hgc c
    exact (congrArg Channel.state hf) ▸ hs.state c
  · obtain ⟨f, hf⟩ := hgc c
    have h1 := congrArg Channel.flags hf
    have h2 : FlagsAdded lateFlags (q.chan c).flags ((q.chan c).flags ||| (f &&& lateFlags)) := ⟨f, rfl⟩
    exact ((hs.flags c).wider (by decide)).trans (h1 ▸ h2)
  · obtain ⟨u, hu⟩ := hs.out
    exact ⟨u ++ o2 ++ o3 ++ o1, by simp [← hu]⟩
  · obtain ⟨y, w, hy⟩ := hsub h hm
    obtain ⟨u, hu⟩ := hs.out
    refine ⟨y, w, ?_⟩
    show _ ∈ List.drop _ (((q.out ++ o2) ++ o3) ++ o1)
    rw [← hu, List.append_assoc, List.append_assoc, List.append_assoc, List.drop_left]
    simp [hy]
  · rw [← hs.port]; exact ⟨pf, rfl⟩
  · rw [← hs.port]; exact hst
  · rw [← hs.port]; exact hh

end Sys2Proof.Machine
end

