-- ==== Sys2Proof/Laws/Overload.lean ====
section
/-! SUPPORT. Overload: what a judgement of it can do, and that it stands as the available pages call for wherever the model has
judged it (R122). -/

namespace Sys2Proof.Machine

theorem foldl_judged_store (l : List (Nat × Channel)) (s : State) :
    (l.foldl (fun s c => s.modChan c.1 Channel.judged) s).store = s.store := by
  induction l generalizing s with
  | nil => rfl
  | cons c l ih => exact (ih _).trans (State.modChan_store _ _ _)

/-- The end of overload writes nothing of the store but the overload state. -/
@[simp] theorem endOverload_store (s : State) : (endOverload s).store = { s.store with overload := false } :=
  foldl_judged_store _ _

/-- The available pages go by the free pages and the entries alone. -/
theorem availablePages_congr {s t : State} (hf : t.store.freePages = s.store.freePages)
    (he : t.store.entries = s.store.entries) : availablePages t = availablePages s := by
  unfold availablePages reclaimPages entriesWhere
  rw [hf, he]

/-- All that a judgement of overload can do: it ends at 32,768 available pages, or begins below 16,384. -/
theorem judgeOverload_cases {s t : State} (h : judgeOverload s = some t) :
    (s.store.overload = true ∧ Config.overloadLeave ≤ availablePages s ∧ t = endOverload s) ∨
      (s.store.overload = false ∧ availablePages s < Config.overloadEnter ∧
        t = { s with store := { s.store with overload := true } }) := by
  unfold judgeOverload at h
  dsimp only at h
  split at h
  · rename_i ho
    split at h
    · rename_i ha
      exact .inl ⟨ho, ha, (Option.some.inj h).symm⟩
    · cases h
  · rename_i ho
    split at h
    · rename_i ha
      exact .inr ⟨by simpa using ho, ha, (Option.some.inj h).symm⟩
    · cases h

/-- Where a judgement has nothing to do, overload stands as the available pages call for. -/
theorem overloadHeld_of_judgeOverload {s : State} (h : judgeOverload s = none) : OverloadHeld s := by
  unfold judgeOverload at h
  dsimp only at h
  constructor <;> intro ho <;> simp only [ho, if_true, if_false, Bool.false_eq_true] at h <;> split at h <;>
    first | (cases h; done) | (rename_i ha; simpa [Config.overloadLeave, Config.overloadEnter] using ha)

/-- A judgement changes nothing of the store but the overload state. -/
theorem overloadJudged_store (s : State) :
    (overloadJudged s).store = { s.store with overload := (overloadJudged s).store.overload } := by
  unfold overloadJudged
  cases h : judgeOverload s with
  | none => rfl
  | some t => obtain ⟨-, -, rfl⟩ | ⟨-, -, rfl⟩ := judgeOverload_cases h <;> simp

@[simp] theorem overloadJudged_available (s : State) : availablePages (overloadJudged s) = availablePages s := by
  refine availablePages_congr ?_ ?_ <;> rw [overloadJudged_store]

/-- Once judged, overload stands as the available pages call for. -/
theorem overloadJudged_held (s : State) : OverloadHeld (overloadJudged s) := by
  unfold OverloadHeld
  rw [overloadJudged_available]
  unfold overloadJudged
  cases h : judgeOverload s with
  | none => exact overloadHeld_of_judgeOverload h
  | some t =>
    obtain ⟨-, ha, rfl⟩ | ⟨-, ha, rfl⟩ := judgeOverload_cases h <;>
      simp only [Config.overloadLeave, Config.overloadEnter] at ha
    · exact ⟨fun h => by simp at h, fun _ => by omega⟩
    · exact ⟨fun _ => by omega, fun h => by simp at h⟩

/-- Every fall of a count leaves overload judged (R113, R122). -/
theorem lowerCount_held (s : State) (id : Nat) (f : Entry → Entry) : OverloadHeld (lowerCount s id f) := overloadJudged_held _

end Sys2Proof.Machine
end

