-- ==== Sys2Proof/Laws/Taken.lean ====
section
/-! SUPPORT. From a request's own act to what its taking leaves: the taking as `endEvent` of the act, the frame carried over the
end of the event, and each answer handed over as one written. -/

namespace Sys2Proof.Machine

theorem drop_mem_of_prefix {α : Type} {a b c : List α} {x : α} (h1 : a <+: b) (h2 : b <+: c)
    (h : x ∈ b.drop a.length) : x ∈ c.drop a.length := by
  obtain ⟨u, rfl⟩ := h1
  obtain ⟨v, rfl⟩ := h2
  rw [List.drop_left] at h
  rw [List.append_assoc, List.drop_left]
  exact List.mem_append_left _ h

theorem drop_mem_of_later {α : Type} {a b c : List α} {x : α} (h1 : a <+: b) (h2 : b <+: c)
    (h : x ∈ c.drop b.length) : x ∈ c.drop a.length := by
  obtain ⟨u, rfl⟩ := h1
  obtain ⟨v, rfl⟩ := h2
  rw [List.drop_left] at h
  rw [List.append_assoc, List.drop_left]
  exact List.mem_append_right _ h

/-- An offered request is taken: its owner acts, then the event ends. -/
theorem takeAs_offered {s : State} {tag : Nat} {r : Request} (h : Offered s tag r) (act : Ticket → State → State) :
    takeAs tag r act s = endEvent (takeBase s r) (act (ticketOf s r.kind tag) (beginTake s)) := by
  unfold takeAs
  rw [if_pos h.1, if_pos h.2]
  rfl

theorem ChanStands.refl (s : State) (c : Nat) : ChanStands s s c := ⟨rfl, .inl rfl, FlagsAdded.refl _ _⟩

theorem ChanStands.trans {s t u : State} {c : Nat} (a : ChanStands s t c) (b : ChanStands t u c) : ChanStands s u c := by
  refine ⟨b.1.trans a.1, ?_, a.2.2.trans b.2.2⟩
  rcases a.2.1 with h | ⟨h, h'⟩
  · rcases b.2.1 with g | ⟨g, g'⟩
    · exact .inl (g.trans h)
    · exact .inr ⟨h ▸ g, g'⟩
  · rcases b.2.1 with g | ⟨g, g'⟩
    · exact .inr ⟨h, g.trans h'⟩
    · exact .inr ⟨h, g'⟩

theorem LinkStands.refl (s : State) (m : Nat) : LinkStands s s m := ⟨rfl, fun _ => .inl rfl⟩

theorem LinkStands.trans {s t u : State} {m : Nat} (n : t.now = s.now) (a : LinkStands s t m) (b : LinkStands t u m) :
    LinkStands s u m := by
  refine ⟨b.1.trans a.1, fun k => ?_⟩
  rcases a.2 k with h | ⟨h, c, hc⟩
  · rcases b.2 k with g | ⟨g, c, hc⟩
    · exact .inl (g.trans h)
    · exact .inr ⟨h ▸ g, c, n ▸ hc⟩
  · rcases b.2 k with g | ⟨g, -⟩
    · exact .inr ⟨h, c, g.trans hc⟩
    · rw [hc] at g; cases g

theorem SettingsStand.refl (s : State) : SettingsStand s s := ⟨rfl, rfl, rfl, rfl, rfl, rfl, rfl, rfl, rfl, rfl⟩

theorem SettingsStand.trans {s t u : State} (a : SettingsStand s t) (b : SettingsStand t u) : SettingsStand s u :=
  ⟨b.1.trans a.1, b.2.trans a.2, b.3.trans a.3, b.4.trans a.4, b.5.trans a.5, b.6.trans a.6, b.7.trans a.7,
    b.8.trans a.8, b.9.trans a.9, b.10.trans a.10⟩

theorem Ends.chanStands {s t : State} (h : Ends s t) (c : Nat) : ChanStands s t c :=
  ⟨h.chans c, h.state c, (h.flags c).wider (by decide)⟩

theorem Ends.linkStands {s t : State} (h : Ends s t) (m : Nat) : LinkStands s t m := ⟨h.links m, h.tags m⟩

theorem Ends.settingsStand {s t : State} (h : Ends s t) : SettingsStand s t :=
  ⟨h.reqBase, h.reqSize, h.reqTail, h.ansBase, h.ansSize, h.ansHead, h.enables, h.overloadMode, h.refLostMode,
    h.chanNotices⟩

theorem Frame.refl (w : Touched) (s : State) : Frame w s s :=
  ⟨fun _ => rfl, fun _ => rfl, fun _ => rfl, fun _ => rfl, fun _ => rfl, fun _ => SettingsStand.refl s,
    fun _ => FlagsAdded.refl _ _, fun _ => rfl, fun c _ => ChanStands.refl s c, fun _ _ => rfl,
    fun m _ => LinkStands.refl s m, rfl, List.prefix_rfl⟩

/-- The frame of an act is the frame of its event; the act leaves house time. -/
theorem Frame.ends {w : Touched} {s s1 t : State} (f : Frame w s s1) (n : s1.now = s.now) (e : Ends s1 t) :
    Frame w s t where
  map h := e.map.trans (f.map h)
  views h := e.views.trans (f.views h)
  volumes h := e.volumes.trans (f.volumes h)
  pins h := e.pins.trans (f.pins h)
  time h := e.time.trans (f.time h)
  settings h := (f.settings h).trans e.settingsStand
  partFlags h := (f.partFlags h).trans (e.partFlags.wider (by decide))
  draws h := e.freeDraws.trans (f.draws h)
  chans c h := (f.chans c h).trans (e.chanStands c)
  rings c h := (e.rings c).trans (f.rings c h)
  links m h := (f.links m h).trans n (e.linkStands m)
  pending := e.pending.trans f.pending
  out := f.out.trans e.out

/-- An answer handed over by an act stands among the outputs of its event. -/
theorem Ends.answers {s s1 t : State} (e : Ends s1 t) (p : s.out <+: s1.out) {q : Ticket} {r : Result} {d : BitVec 8}
    {is : List Item} (h : ⟨q, r, false, d, is⟩ ∈ s1.handed) : Answered s t q.kind q.tag r d is := by
  obtain ⟨a, st, hm⟩ := e.answered _ h
  exact ⟨a, st, drop_mem_of_later p e.out hm⟩

/-- An output of an act stands among the outputs of its event. -/
theorem Ends.outputs {s s1 t : State} (e : Ends s1 t) {o : Output} (h : o ∈ outputsSince s s1) (p : s.out <+: s1.out) :
    o ∈ outputsSince s t := drop_mem_of_prefix p e.out h

/-- Taking a request touches nothing but the port's counts and what stands in hand. -/
theorem beginTake_frame (s : State) : Frame {} s (beginTake s) := by
  refine ⟨fun _ => rfl, fun _ => rfl, fun _ => rfl, fun _ => rfl, fun _ => rfl, fun _ => ?_, fun _ => FlagsAdded.refl _ _,
    fun _ => rfl, fun c _ => ChanStands.refl s c, fun _ _ => rfl, fun m _ => LinkStands.refl s m, rfl, List.prefix_rfl⟩
  exact ⟨rfl, rfl, rfl, rfl, rfl, rfl, rfl, rfl, rfl, rfl⟩

end Sys2Proof.Machine
end

