-- ==== Sys2Proof/Tests/Slice0.lean ====
section
/-! SUPPORT. Tests on fixed values: the refusals of the well-formedness checks, the spec's worked examples, and for each
statement with hypotheses a state and operands that meet them. -/

namespace Sys2Proof.Tests

open Sys2Proof Sys2Proof.Machine

-- One test at a time: many kernel evaluations side by side take a thread's memory each.
set_option Elab.async false

/-! ## A small part: volume 2 over members 4 to 9, clip 7 on it, view 3 (the worked examples of 01 and 02) -/

def enabledPort : Port :=
  { Port.initial with
    reqBase := 4096, reqSize := 64, ansBase := 65536, ansSize := 64, state := .enabled, hand := .reading }

def volumeTwo : Volume := ⟨true, [4, 5, 6, 7, 8, 9], true, 64, 2048, 1000000000, 15625000, 5000000000, 1⟩

def groupOf7 : GroupSlot := .uniform 4211 4096000000 35397632 64

def clipSeven : Clip := ⟨.live, 77, 2, 4, 120000, false, [(6, ⟨[(28, groupOf7)], 1⟩)], 1, 0⟩

def shapeThree : Shape := ⟨8192, 16384, 1000, 4, 2, 4096, 8192⟩

def onlineLink (i : Nat) : Link :=
  { Link.initial with up := true, member := .online, volume := some 2, index := some i, resetSeen := true }

/-- The part with its rings enabled, a volume, a clip and a view. -/
def part : State :=
  { State.reset with
    port := enabledPort
    map := { State.reset.map with clips := [(7, clipSeven)], freePages := 8191, serial := some 5000 }
    views := [(0, View.whole), (3, ⟨true, shapeThree, 0⟩)]
    links := [(4, onlineLink 0), (5, onlineLink 1), (6, onlineLink 2), (7, onlineLink 3), (8, onlineLink 4), (9, onlineLink 5)]
    volumes := [(2, volumeTwo)] }

/-- The part with one link record replaced. -/
def withLink (m : Nat) (l : Link) : State := part.setLink m l

def aTicket : Ticket := ⟨52, 9, 0⟩

/-- An open channel bound to clip 7 over its whole range under view 0. -/
def boundChannel (st : ChanState) : Channel :=
  { Channel.initial with
    state := st, ringBase := 1048576, recordArea := 524288, slotCount := 4, slotBytes := 36864000, clip := 7, view := some 0
    lastFrame := 119999, period := 900000, speed := 16, pos := 1600 }

def openRing : Ring := { Ring.initial with base := 1048576, recordArea := 524288, slotCount := 4, slotBytes := 36864000 }

/-- The part with channel 0 as given, bound to clip 7. -/
def withChannel (ch : Channel) : State :=
  { part with
    map := { part.map with clips := [(7, { clipSeven with bindCount := 1 })] }
    views := [(0, { View.whole with useCount := 1 }), (3, ⟨true, shapeThree, 0⟩)]
    chans := [(0, ch)], rings := [(0, openRing)] }

/-- The part with channel 0 bound and in a state. -/
def bound (st : ChanState) : State := withChannel (boundChannel st)

def idleChannel : Channel :=
  { Channel.initial with state := .idle, ringBase := 1048576, recordArea := 524288, slotCount := 4, slotBytes := 36864000 }

/-- The part with channel 0 open and unbound. -/
def opened : State := { part with chans := [(0, idleChannel)], rings := [(0, openRing)] }

/-- The next state of an outcome, the given state where there is none. -/
def nextOf (s : State) : Host.Outcome State Fault Refusal → State
  | .next t => t
  | _ => s

/-! ## Ill-formed commands -/

theorem test_wf_refuses_wide_tag : Instr.wf (.timeAsk 65536) = false := by decide
theorem test_wf_refuses_wide_item : Instr.wf (.clipMake 0 ⟨0, 256, 0, false⟩) = false := by decide
theorem test_wf_refuses_wide_signed_item :
    Instr.wf (.chanCue 0 ⟨0, 2147483648⟩) = false ∧ Instr.wf (.chanCue 0 ⟨0, -2147483649⟩) = false := by decide
theorem test_wf_refuses_members_of_wrong_number :
    Instr.wf (.volumeDefine 0 ⟨0, 3, false, 16, [1, 2], 0, 64⟩) = false := by decide
theorem test_wf_refuses_wide_member :
    Instr.wf (.volumeDefine 0 ⟨0, 2, false, 16, [1, 256], 0, 64⟩) = false := by decide
theorem test_wf_refuses_wide_apply : Instr.wf (.chanSpeed 0 ⟨0, 16, some 4294967296⟩) = false := by decide
theorem test_wf_refuses_offset_past_window : Instr.wf (.portWordWrite 4096 4 0) = false := by decide
theorem test_wf_refuses_wide_write : Instr.wf (.portWordWrite 8 4 4294967296) = false := by decide
theorem test_wf_refuses_short_entry : Instr.wf (.requestReadDone (some [0, 0])) = false := by decide
theorem test_wf_refuses_tagged_failed_read : Instr.wf (.badKind 1 0 true) = false := by decide
theorem test_wf_refuses_ragged_list : Instr.wf (.groupListFetchEnd (some [0])) = false := by decide
theorem test_wf_refuses_channel_64 : Instr.wf (.dueTime 64) = false := by decide
theorem test_wf_refuses_link_16 : Instr.wf (.linkUp 16) = false := by decide
theorem test_wf_refuses_tag_8 : Instr.wf (.tagExpiry 0 8) = false := by decide

/-! ## Worked examples of the spec -/

/-- 01, worked example: frame 100,130 of clip 7 is index 34 of group 1564. -/
theorem test_lookup_worked_example : lookup part 7 100130 = .present 4211 34 5299519488 35397632 := by decide

/-- 01: frames 120,000 and on lie outside; a frame of an absent page is absent. -/
theorem test_lookup_outside_and_absent : lookup part 7 120000 = .outside ∧ lookup part 7 0 = .absent := by decide

/-- 02, worked example: the pieces of frame 100,130 under view 3. -/
theorem test_plan_worked_example :
    (planOf volumeTwo 3 shapeThree ⟨5299519488, 35397632⟩).map
      (fun p => (p.unit, p.offset, p.count, p.memberIndex, p.member, p.sector)) =
      [(20278, 39, 25, 4, 8, 261607), (20279, 0, 1, 5, 9, 261568)] := by decide +kernel

/-- 02, worked example: the extracts of both pieces. -/
theorem test_extracts_worked_example :
    (planOf volumeTwo 3 shapeThree ⟨5299519488, 35397632⟩).map (fun p => p.extracts) =
      [[⟨0, 8192, 0⟩, ⟨32768, 8192, 8192⟩, ⟨65536, 8192, 16384⟩, ⟨98304, 4096, 24576⟩], [⟨0, 4096, 28672⟩]] := by
  decide +kernel

/-- 02, worked example: the size question; a smaller frame is short or outside. -/
theorem test_size_worked_example :
    sizeOf 3 shapeThree 35397632 = some (32768, false) ∧ sizeOf 3 shapeThree 16470000 = some (16384, true) ∧
      sizeOf 3 shapeThree 2000000 = none := by decide

/-- The positions of the next periods under a course. -/
def positions (k : Course) : Nat → Cursor → List Int
  | 0, _ => []
  | n + 1, c => c.pos :: (match k.next c with
    | some d => positions k n d
    | none => [])

/-- 04, worked example: 40 sixteenths a period. -/
theorem test_positions_forward :
    positions ⟨0, 119999, false, false, 40, none⟩ 5 ⟨0, 1600, false⟩ = [1600, 1640, 1680, 1720, 1760] := by decide

/-- 04, worked example: the loop of frames 100 to 103. -/
theorem test_positions_loop :
    positions ⟨100, 103, true, false, 40, none⟩ 8 ⟨0, 1600, false⟩ =
      [1600, 1640, 1616, 1656, 1632, 1608, 1648, 1624] := by decide

/-- 04, worked example: reverse to the in point, then the end. -/
theorem test_positions_reverse_end :
    positions ⟨10, 119999, false, false, -16, none⟩ 8 ⟨0, 192, false⟩ = [192, 176, 160] := by decide

/-- 04, worked example: 512 in the loop stays. -/
theorem test_positions_loop_still :
    positions ⟨100, 103, true, false, 512, none⟩ 3 ⟨0, 1600, false⟩ = [1600, 1600, 1600] := by decide

/-- 04, R75: far on in a loop of one frame, 5 sixteenths a period: (5 × 5000) mod 16 = 8, and 5 fewer a period from there. -/
theorem test_position_far_on :
    (⟨100, 100, true, false, 5, none⟩ : Course).at ⟨0, 1600, false⟩ 5000 = some ⟨5000, 1608, false⟩ ∧
      (⟨100, 100, true, false, 5, some (-5, 5000)⟩ : Course).at ⟨0, 1600, false⟩ 2000005000 =
        some ⟨2000005000, 1608, false⟩ := by decide +kernel

/-- 09, worked example: E 9,009,000 and M 9,009,270, three ticks in four cycles. -/
theorem test_house_ticks_worked_example :
    let t0 : Timebase := { Timebase.initial with ticks := 9009000, cycles := 9009270 }
    t0.cycle.accumulator = 9009000 ∧ t0.cycle.house = 0 ∧ t0.cycle.cycle.accumulator = 9008730 ∧ t0.cycle.cycle.house = 1 ∧
      t0.cycle.cycle.cycle.cycle.accumulator = 9008190 ∧ t0.cycle.cycle.cycle.cycle.house = 3 := by decide

/-- 09, worked example: three measurements and their figures. -/
theorem test_figures_worked_example :
    (withinTolerance 9009000 9009270 = true ∧ figureOf 9009000 9009270 = 2997) ∧
      (withinTolerance 9009000 9011500 = false ∧ figureOf 9009000 9011500 = 27750) ∧
      (withinTolerance 9009000 9006748 = true ∧ figureOf 9009000 9006748 = -24997) := by decide

/-- The last answer written between two states: kind, result, detail, items. -/
def lastAnswer (s t : State) : Option (Nat × Result × BitVec 8 × List Item) :=
  (outputsSince s t).foldl (fun r o => match o with
    | .answer _ a => some (a.kind, a.result, a.detail, a.items)
    | _ => r) none

/-- The answer a command draws. -/
def answerOf (i : Instr) (s : State) : Option (Nat × Result × BitVec 8 × List Item) := lastAnswer s (nextOf s (exec i s))

/-- 08, worked example: members of another volume refuse with BOUND naming member 9; parity over two members refuses with
RANGE naming parity. -/
theorem test_volumeDefine_refusals :
    answerOf (.volumeDefine 0 ⟨3, 2, false, 32, [9, 10], 0, 500000⟩) part = some (96, .bound, 9, []) ∧
      answerOf (.volumeDefine 0 ⟨3, 2, true, 32, [10, 11], 0, 500000⟩) part = some (96, .range, 3, []) := by
  decide +kernel

/-- 08, worked example: the definition of volume 2 makes 5,000,000,000 sectors. -/
theorem test_volumeDefine_capacity :
    answerOf (.volumeDefine 0 ⟨2, 6, true, 64, [4, 5, 6, 7, 8, 9], 2048, 1000000000⟩)
      { State.reset with
        port := enabledPort
        links := [4, 5, 6, 7, 8, 9].map (fun m => (m, { Link.initial with up := true, resetSeen := true })) } =
      some (96, .ok, 0, [itemFlag false, item1 0, item8 5000000000]) := by
  decide +kernel

/-- 10, worked sequence: answer entry 160 of a ring of 64 is entry 32. -/
theorem test_answer_entry_wraps :
    answerAddress { enabledPort with produced := 160 } = 65536 + 32 * 32 := by decide

/-- 11: a CLIP_ASK of clip 7 with tag 9, byte by byte. -/
theorem test_decode_clip_ask :
    decodeEntry (some ([22, 0, 9, 0, 0, 0, 0, 0, 7, 0] ++ List.replicate 54 0)) = .request 9 (.clipAsk 7) := by
  decide +kernel

/-- 11: an entry whose kind is in no row, and an entry whose read failed. -/
theorem test_decode_unknown :
    decodeEntry (some ([0, 1, 9, 0] ++ List.replicate 60 0)) = .unknown 9 256 ∧ decodeEntry none = .failed := by
  decide +kernel

/-! ## Steps -/

/-- 10: power-on reset leaves every block at rest; the model's queue stands. -/
theorem test_powerOnReset_keeps_queue :
    nextOf part (exec .powerOnReset { part with pending := [.localCycle] }) =
      { State.reset with pending := [.localCycle], out := [] } := by decide +kernel

/-- 10: enabling with legal words zeroes the counts and writes the port record behind the answer ring. -/
theorem test_ringEnableOn :
    (nextOf part (exec .ringEnableOn { part with port := { enabledPort with state := .disabled, hand := .idle, head := 9 } })).out =
      [.portRecord (65536 + 2048) 0 0] := by decide +kernel

/-- 10: a tail beyond H + REQ_SIZE is ignored. -/
theorem test_reqTailWrite_window :
    (nextOf part (exec (.reqTailWrite 64) part)).port.reqTail = 64 ∧
      (nextOf part (exec (.reqTailWrite 65) part)).port.reqTail = 0 := by decide +kernel

/-- 01: the lowest FREE handle is 1. -/
theorem test_clipMake_lowest :
    answerOf (.clipMake 3 ⟨5, 2, 4, true⟩) part = some (16, .ok, 0, [item2 1]) := by decide +kernel

/-- 03: a cue clamps its position into the range: 16 × 119,999 + 15. -/
theorem test_chanCue_clamps :
    ((nextOf part (exec (.chanCue 3 ⟨0, 99999999⟩) (bound .idle))).chan 0).pos = 1919999 := by decide +kernel

/-- 03: a speed above 512 is clamped to it. -/
theorem test_chanSpeed_clamps :
    answerOf (.chanSpeed 3 ⟨0, 600, none⟩) (bound .held) = some (55, .ok, 0, [item2s 512, item4 0]) := by decide +kernel

/-- 08: a hold on an idle member of a parity volume is answered at once. -/
theorem test_memberHold_idle :
    ((nextOf part (exec (.memberHold 3 4) part)).link 4).member = .held := by decide +kernel

/-! ## Witnesses: steps and laws -/

/-- A read of one piece waits for member 8, which is ONLINE. -/
def queuedRead : State :=
  { part with
    port := { enabledPort with hand := .idle }
    sched := { part.sched with
      reads := [⟨8, 261607, 39, 0, 0, false, .playout, some 5, 0, none, false⟩], freeRecords := 4095 } }

theorem witness_StepRunsFrontCommand : ({ part with pending := [.localCycle] } : State).pending = .localCycle :: [] := rfl

/-- A part just reset whose host writes REQ_SIZE. -/
def setUp : State := { State.reset with pending := [.portWordWrite 8 4 64] }

theorem witness_StepsKeepRatioAndSpeeds :
    RatioHeld setUp ∧ SpeedsHeld setUp ∧ ∃ t, step setUp = .next t :=
  ⟨by unfold RatioHeld; decide, fun c => by simp [setUp, State.reset, State.chan, tget, Channel.initial], _, rfl⟩

theorem witness_StepsKeepListsAndSlots : ListsHeld setUp ∧ SlotsHeld setUp ∧ ∃ t, step setUp = .next t :=
  ⟨fun c => by simp [setUp, State.reset, State.chan, tget, Channel.initial],
    fun c => by simp [setUp, State.reset, State.ring, tget, Ring.initial, Ring.hostHeld, Ring.free], _, rfl⟩

theorem witness_StepsKeepCanonicalForm : MemoryHeld setUp ∧ TablesHeld setUp ∧ ∃ t, step setUp = .next t :=
  ⟨by unfold MemoryHeld; decide, by unfold TablesHeld; decide, _, rfl⟩

theorem witness_StepsKeepCanonicalForm_pages : TablesHeld setUp ∧ PagesHeld setUp :=
  ⟨by unfold TablesHeld; decide, by decide, fun _ _ h => by simp [setUp, State.reset, State.entry, tget] at h⟩

theorem witness_StepsKeepLinkBounds_records : TablesHeld setUp ∧ RecordsHeld setUp :=
  ⟨by unfold TablesHeld; decide, by decide, fun r h => by simp [setUp, State.reset] at h,
    fun _ _ h => by simp [setUp, State.reset, State.context, tget] at h,
    fun _ _ h => by simp [setUp, State.reset, State.context, tget] at h,
    fun _ _ h => by simp [setUp, State.reset, State.context, tget] at h⟩

theorem witness_StepsKeepBindCounts_users : TablesHeld setUp ∧ UsersHeld setUp :=
  ⟨by unfold TablesHeld; decide, fun _ _ h => by simp [setUp, State.reset, State.entry, tget] at h,
    fun id _ => ⟨rfl, by simp [pinHolds, State.pin, setUp, State.reset, tget, Pin.initial]; decide⟩,
    fun _ _ => rfl, fun _ _ => rfl, fun _ _ h => by simp [setUp, State.reset, State.context, tget] at h⟩

theorem witness_StepsKeepLinkBounds : FailuresHeld setUp ∧ PinReadsHeld setUp ∧ ∃ t, step setUp = .next t :=
  ⟨fun m => by simp [setUp, State.reset, State.link, tget, Link.initial],
    fun m => by
      have h : setUp.link m = Link.initial := rfl
      rw [h]; decide, _, rfl⟩

theorem witness_StepsKeepTheNoticeLine : LineHeld setUp ∧ ∃ t, step setUp = .next t :=
  ⟨by unfold LineHeld; decide, _, rfl⟩

theorem witness_StepsKeepBindCounts : BindsHeld setUp ∧ ∃ t, step setUp = .next t :=
  ⟨⟨fun h h0 => by
      have hc : (setUp.clip h).bindCount = 0 := rfl
      have hb : ∀ c, ((setUp.chan c).clip == h) = false := fun c => by
        have hz : (setUp.chan c).clip = 0 := rfl
        rw [hz]; simp; omega
      simp [hc, bindsOf, hb], fun _ _ => rfl, fun _ _ => rfl⟩, _, rfl⟩

theorem witness_ReadsGoOnlyToOnlineMembers :
    let s := { queuedRead with pending := [.ringEnableOff] }
    takeable s = none ∧ ∃ t, step s = .next t ∧ Output.sendRead 8 0 261607 39 ∈ outputsSince s t :=
  ⟨rfl, nextOf part (exec .ringEnableOff queuedRead), rfl, by decide +kernel⟩

theorem witness_ReadsGoOnlyToOnlineMembers_port : TablesHeld part ∧ PortHeld part := by
  unfold TablesHeld PortHeld; decide

/-- Member 4 is HELD, the other members of volume 2 ONLINE. -/
def oneHeld : State := withLink 4 { onlineLink 0 with member := .held }

theorem witness_StepsKeepLinkBounds_drains : DrainsHeld oneHeld ∧ (oneHeld.link 4).member.leaving = true := by
  have h : ∀ m v, (oneHeld.link m).volume = some v → v = 2 ∧ (m = 4 ∨ m = 5 ∨ m = 6 ∨ m = 7 ∨ m = 8 ∨ m = 9) := by
    intro m v e
    by_cases hm : m < 10
    · interval_cases m <;> simp_all [oneHeld, withLink, State.setLink, State.link, part, tset, terase, tinsert, tget,
        onlineLink, Link.initial]
    · rw [show oneHeld.link m = Link.initial by
        have : 4 ≠ m ∧ 5 ≠ m ∧ 6 ≠ m ∧ 7 ≠ m ∧ 8 ≠ m ∧ 9 ≠ m := by omega
        simp [oneHeld, withLink, State.setLink, State.link, part, tset, terase, tinsert, tget, onlineLink, Link.initial,
          this]] at e
      cases e
  refine ⟨⟨fun m k v hm hk lm lk => ?_, fun m v hm => ?_⟩, by decide⟩
  · replace hm := (h m v hm).2
    replace hk := (h k v hk).2
    rcases hm with rfl | rfl | rfl | rfl | rfl | rfl <;> rcases hk with rfl | rfl | rfl | rfl | rfl | rfl <;>
      first | rfl | (exfalso; revert lm lk; decide)
  · rw [(h m v hm).1]
    rcases (h m v hm).2 with rfl | rfl | rfl | rfl | rfl | rfl <;> decide

/-- The part with so many pages free, in overload or not, and its waiting entries; OVERLOAD is set on leaving overload too. -/
def pressed (free : Nat) (overload : Bool) (entries : Tab (Option Entry)) : State :=
  { part with
    port := { enabledPort with overloadMode := .both }
    store := { part.store with freePages := free, overload := overload, entries := entries } }

theorem witness_StepsKeepTheNoticeLine_overload :
    (∃ t, exec .ringEnableOff (pressed 16383 false []) = .next t ∧ t.store.overload = true) ∧
      (∃ t, exec .ringEnableOff (pressed 32768 true []) = .next t ∧ t.store.overload = false) ∧
      AtRest (pressed 32767 true []) ∧ AtRest (pressed 16384 false []) :=
  ⟨⟨nextOf part (exec .ringEnableOff (pressed 16383 false [])), rfl, by decide +kernel⟩,
    ⟨nextOf part (exec .ringEnableOff (pressed 32768 true [])), rfl, by decide +kernel⟩, by decide +kernel, by decide +kernel⟩

theorem witness_OnlyReadsWriteStoreMemory :
    (∃ t, exec .powerOnReset part = .next t) ∧ ∀ l m, Instr.powerOnReset ≠ .doneReceived l m :=
  ⟨⟨_, rfl⟩, fun _ _ h => (by cases h)⟩

/-! ## Witnesses: the Request Port -/

theorem witness_RequestsSurviveTheirBytes :
    requestRowWf 65535 (.clipMake ⟨18446744073709551615, 255, 255, true⟩) = true := by decide

theorem witness_SetupWordsStoredWhileDisabled :
    State.reset.port.state = .disabled ∧ 18446744073709551615 < 256 ^ 8 ∧ (0 : Nat) ≠ 12 ∧ (24 : Nat) ≠ 28 := by decide

theorem witness_SetupWordsStoredWhileDisabled_wrong :
    ((28 : Nat) = 12 ∨ (28 : Nat) = 28 ∨ (28 : Nat) = 32) ∧ ((8 : Nat) ≠ 4 ∨ ((28 : Nat) = 32 ∧ 2 ≤ 1)) ∧
      ((32 : Nat) = 32 ∧ 2 ≤ 2) := by decide

/-- 11: REQ_TAIL takes a write of 4 bytes and no other. -/
theorem test_portWordWrite_tail :
    (nextOf part (exec (.portWordWrite 12 4 5) part)).port.reqTail = 5 ∧
      (nextOf part (exec (.portWordWrite 12 8 5) part)).port.reqTail = 0 := by decide +kernel

/-- The part between events is quiet, with a reserved answer too. -/
theorem witness_Quiet : Quiet part ∧ Quiet { part with port := { enabledPort with reserved := 1 } } := by
  unfold Quiet TablesHeld; decide +kernel

/-- A TIME_ASK is in hand and every answer entry is produced and unread. -/
def answersFull : State :=
  { part with port := { enabledPort with produced := 64, hand := .held (.request 7 .timeAsk) } }

/-- 10: the ANS_HEAD write that makes room for one answer lets the request in hand be taken in the same event. -/
theorem test_ansHeadWrite_takes :
    (nextOf part (exec (.ansHeadWrite 1) answersFull)).port.head = 1 ∧
      (nextOf part (exec (.ansHeadWrite 0) answersFull)).port.head = 0 := by decide +kernel

theorem witness_HeadAndTailWritesJudged_taking :
    answersFull.port.hand = .held (.request 7 .timeAsk) ∧ canTake answersFull 113 = false ∧
      canTake { answersFull with port := { answersFull.port with ansHead := 1 } } 113 = true := by decide

theorem witness_HeadAndTailWritesJudged :
    part.port.state ≠ .disabled ∧
      ((64 : Word32) - part.port.reqTail).toNat ≤ (part.port.head + part.port.reqSize - part.port.reqTail).toNat := by
  decide

theorem witness_RingEnableStartsAndStops_enable :
    let s := { part with port := { enabledPort with state := .disabled, reqSize := 4096 } }
    s.port.state = .disabled ∧ (LegalRing s.port.reqSize ∧ LegalRing s.port.ansSize ∧ s.port.reqBase.toNat % 64 = 0 ∧
      s.port.ansBase.toNat % 32 = 0) := ⟨by decide, ⟨12, by decide⟩, ⟨6, by decide⟩, by decide, by decide⟩

theorem witness_RingEnableStartsAndStops_refused : State.reset.port.state = .disabled ∧ ¬LegalRing State.reset.port.reqSize :=
  ⟨by decide, fun ⟨k, _, _, h⟩ => by
    have : (0 : Nat) < 2 ^ k := Nat.two_pow_pos k
    simp [State.reset, Port.initial] at h
    omega⟩

theorem witness_RingEnableStartsAndStops_stop : part.port.state = .enabled ∧ part.port.reserved = 0 ∧ part.handed = [] := by
  decide

/-- 10: a stop with an answer owed leaves the port STOPPING. -/
theorem test_ringEnableOff_owing :
    (nextOf part (exec .ringEnableOff { part with port := { enabledPort with reserved := 1 } })).port.state = .stopping ∧
      (nextOf part (exec .ringEnableOff part)).port.state = .disabled := by decide +kernel

/-- 11: the 8-byte base is read whole or by halves; a size in 4 bytes. -/
theorem test_portRead_widths :
    let s := { part with port := { enabledPort with reqBase := 4294967296 * 5 + 64 } }
    portRead s 0 8 = 21474836544 ∧ portRead s 0 4 = 64 ∧ portRead s 4 4 = 5 ∧ portRead s 8 4 = 64 ∧
      portRead s 32 4 = 1 := by decide

theorem witness_ReadEndPutsRequestInHand :
    part.port.hand = .reading ∧ decodeEntry none = .failed ∧ canTake part (kindInHand .failed) = true ∧
      canTake { part with port := { enabledPort with produced := 64 } } (kindInHand .failed) = false := by decide

/-- 10: the end of a failed read is taken in the same event. -/
theorem test_readDone_takes : (nextOf part (exec (.requestReadDone none) part)).port.head = 1 := by decide +kernel

theorem witness_ReadEndPutsRequestInHand_condemned :
    let s := { part with port := { enabledPort with state := .stopping, hand := .condemned } }
    s.port.hand = .condemned ∧ s.port.state ≠ .enabled := by decide

theorem witness_UnknownKindsAnsweredBadKind :
    part.port.hand.brings (.unknown 7 256) = true ∧ canTake part 0 = true ∧ requestWidths 256 = none ∧
      part.port.hand.brings .failed = true := by decide

theorem witness_RequestTakeRunsTheRow :
    let s := { part with port := { enabledPort with hand := .held (.request 7 .timeAsk) } }
    s.port.hand = .held (.request 7 .timeAsk) ∧ canTake s (Request.timeAsk).kind = true := by decide

theorem witness_RequestTakeRunsTheRow_unknown :
    let s := { part with port := { enabledPort with hand := .held (.unknown 7 4) } }
    s.port.hand = .held (.unknown 7 4) ∧ requestWidths 4 = none := by decide

theorem witness_TakingRaisesTheHead : Offered part 7 .timeAsk := by decide

theorem witness_NoticeModeStoresItsScope :
    Offered part 7 (.noticeMode ⟨65, 127, 3, 0⟩) ∧ modeOfCode 3 = some .level ∧ modeOfCode 0 = some .enter ∧
      Offered part 7 (.noticeMode ⟨64, 15, 3, 3⟩) ∧ Offered part 7 (.noticeMode ⟨63, 127, 3, 3⟩) := by decide

/-- A channel at the edge, whose EDGE flag is clear. -/
def atEdge : State := withChannel { boundChannel .held with edge := true }

theorem witness_NoticeModeStoresItsScope_edge :
    Offered atEdge 7 (.noticeMode ⟨0, 0, 0, 3⟩) ∧ Offered atEdge 7 (.noticeMode ⟨65, 0, 0, 3⟩) ∧
      (atEdge.chan 0).edge = true := by decide

/-- 10: mode LEVEL sets EDGE at once, for one channel and for all. -/
theorem test_noticeMode_edge :
    ((nextOf part (exec (.noticeMode 7 ⟨0, 0, 0, 3⟩) atEdge)).chan 0).flags = ChanFlag.edge ∧
      ((nextOf part (exec (.noticeMode 7 ⟨65, 0, 0, 3⟩) atEdge)).chan 0).flags = ChanFlag.edge := by decide +kernel

theorem witness_NoticeTakeReadsAndClears :
    Offered part 7 (.noticeTake ⟨64, 1⟩) ∧ Offered part 7 (.noticeTake ⟨63, 127⟩) := by decide

/-- A quiet part whose OVERLOAD, and whose channel's MISSING, holds under mode LEVEL. -/
def levelNotices : State :=
  let s := withChannel { boundChannel .held with missing := true, flags := ChanFlag.missing }
  { s with
    store := { s.store with freePages := 20000, overload := true }
    port := { enabledPort with
      flags := PartFlag.overload, overloadMode := .level, chanNotices := [(0, ⟨0, .level, .enter⟩)] } }

theorem witness_NoticeTakeReadsAndClears_level :
    Offered levelNotices 7 (.noticeTake ⟨64, 15⟩) ∧ Offered levelNotices 7 (.noticeTake ⟨0, 127⟩) ∧ Quiet levelNotices := by
  unfold Quiet TablesHeld; decide +kernel

/-- 10: a flag whose mode is LEVEL stays set under a condition that holds. -/
theorem test_noticeTake_level :
    (nextOf part (exec (.noticeTake 7 ⟨64, 15⟩) levelNotices)).port.flags = PartFlag.overload ∧
      ((nextOf part (exec (.noticeTake 7 ⟨0, 127⟩) levelNotices)).chan 0).flags = ChanFlag.missing := by decide +kernel

theorem witness_ServiceClearReturnsToRest :
    Offered part 7 .serviceClear ∧ twf View.initial part.views = true ∧ part.handed = [] ∧ anyTransfer part = false := by
  decide

/-! ## Witnesses: the Frame Map -/

theorem witness_ClipMakeTakesLowestHandle :
    Offered part 7 (.clipMake ⟨5, 2, 7, true⟩) ∧ (part.volume 2).defined = true ∧ (part.clip 1).state = .free ∧
      ∀ k < 1, k = 0 ∨ (part.clip k).state ≠ .free := by decide

theorem witness_ClipAmendStoresItsFields :
    Offered part 7 (.clipAmend ⟨7, true, 1048576, 5⟩) ∧ (part.clip 7).state = .live := by decide

/-- A following channel in the last period of its clip, its list stopped at the end period. -/
def lastPeriod : State :=
  withChannel { boundChannel .running with
    follow := true, dueTime := some 900000, pos := 1919984, primePeriods := 0, list := [⟨119999, 0, some 1, .absent, none⟩] }

/-- In such a part a clip's only binding is channel 0's to clip 7. -/
theorem binds_withChannel (ch : Channel) (h : ch.clip = 7) (hs : ch.state ≠ .free) : BindsHeld (withChannel ch) := by
  have hc : ∀ c, ((withChannel ch).chan c).clip = if c = 0 then 7 else 0 := fun c => by
    by_cases c0 : c = 0
    · simp [c0, withChannel, State.chan, tget, h]
    · have : ¬0 = c := fun e => c0 e.symm
      simp [c0, this, withChannel, State.chan, tget, Channel.initial]
  refine ⟨fun k k0 => ?_, fun k hk => ?_, fun c hcf => ?_⟩
  · by_cases k7 : k = 7
    · subst k7
      have : bindsOf (withChannel ch) 7 = 1 := by
        simp only [bindsOf, hc]; decide
      rw [this]; rfl
    · have e : ¬7 = k := fun e => k7 e.symm
      have : bindsOf (withChannel ch) k = 0 := by
        simp only [bindsOf, hc, List.length_eq_zero_iff, List.filter_eq_nil_iff]
        intro c _; split <;> simp <;> omega
      rw [this]; simp [withChannel, State.clip, tget, e, Clip.initial]
  · by_cases k7 : k = 7
    · subst k7; exact absurd hk (by simp [withChannel, State.clip, tget, clipSeven])
    · have e : ¬7 = k := fun e => k7 e.symm
      simp [withChannel, State.clip, tget, e, Clip.initial]
  · rw [hc]
    by_cases c0 : c = 0
    · subst c0
      rcases hcf with hf | hf
      · exact absurd hf (by simpa [withChannel, State.chan, tget] using hs)
      · exact absurd hf (by decide)
    · simp [c0]

theorem witness_ClipAmendStoresItsFields_growing :
    Offered lastPeriod 7 (.clipAmend ⟨7, true, 120000, 5⟩) ∧ (lastPeriod.clip 7).state = .live ∧ Quiet lastPeriod ∧
      (lastPeriod.clip 7).growing = false ∧ 120000 = (lastPeriod.clip 7).length ∧ (lastPeriod.chan 0).state = .running ∧
      (cursorOf lastPeriod (lastPeriod.chan 0) (lastPeriod.chan 0).firstUnwritten).isSome = true := by
  unfold Quiet TablesHeld; decide +kernel

/-- A following channel at the live edge of its growing clip, the records of its due index and of the next period written, and a
pending speed. -/
def liveEdge : State :=
  let s := withChannel { boundChannel .running with
    follow := true, edge := true, atEdge := true, dueTime := some 900000, pos := 1919984, lastRecord := some 1
    course := some ⟨32, 9, ⟨55, 8, 0⟩⟩ }
  { s with map := { s.map with clips := [(7, { clipSeven with bindCount := 1, growing := true })] } }

theorem witness_ClipAmendStoresItsFields_ending :
    Offered liveEdge 7 (.clipAmend ⟨7, false, 120000, 5⟩) ∧ (liveEdge.clip 7).growing = true ∧
      120000 = (liveEdge.clip 7).length ∧ (liveEdge.chan 0).clip = 7 ∧ (liveEdge.chan 0).follow = true ∧
      (liveEdge.chan 0).state = .running ∧ (liveEdge.chan 0).atEdge = true ∧
      (liveEdge.chan 0).recordFrom (liveEdge.chan 0).dueIndex = true ∧ (liveEdge.ring 0).revoke = none ∧
      (liveEdge.chan 0).course.isSome = true ∧ (lastPeriod.chan 0).atEdge = false := by decide

/-- 03, R66: the end of growth at the live edge: HELD at 16L, END and REVISED set, the pending speed stored. -/
theorem test_growth_ends_play :
    let t := nextOf part (exec (.clipAmend 7 ⟨7, false, 120000, 5⟩) liveEdge)
    (t.chan 0).state = .held ∧ (t.chan 0).pos = 1919984 ∧ (t.chan 0).flags = ChanFlag.playEnd ||| ChanFlag.revised ∧
      (t.chan 0).speed = 32 := by decide +kernel

/-- The channel of `liveEdge` HELD by a CHAN_HOLD, at speed 5 since. -/
def heldEdge : State :=
  let t := nextOf part (exec (.chanHold 7 0) liveEdge)
  let u := nextOf part (exec (.chanSpeed 7 ⟨0, 5, none⟩) { t with port := enabledPort })
  { u with port := enabledPort }

theorem witness_ClipAmendStoresItsFields_held :
    (heldEdge.chan 0).clip = 7 ∧ (heldEdge.chan 0).follow = true ∧ (heldEdge.chan 0).state = .held ∧
      (heldEdge.chan 0).atEdge = true ∧ (heldEdge.clip 7).growing = true := by decide +kernel

/-- 04, R77: the edge stands through HELD: EDGE falls at the hold and is back at the start, and a positive speed keeps 16L. -/
theorem test_edge_through_hold :
    let t := nextOf part (exec (.chanStart 8 ⟨0, 0, 0⟩) heldEdge)
    (heldEdge.chan 0).edge = false ∧ (t.chan 0).edge = true ∧
      (courseOf t (t.chan 0)).next (t.chan 0).due = some ⟨1, 1919984, true⟩ := by decide +kernel

theorem witness_ClipAmendStoresItsFields_binds : BindsHeld lastPeriod :=
  binds_withChannel _ rfl (by decide)

/-- 04, R83: a stopped list stands when its clip begins to grow, and is extended at the next depth change. -/
theorem test_growing_list :
    let t := nextOf part (exec (.clipAmend 7 ⟨7, true, 120000, 5⟩) lastPeriod)
    (t.chan 0).list = (lastPeriod.chan 0).list ∧
      ((nextOf part (exec (.chanDepth 8 ⟨0, 4, 4, 4⟩) { t with port := enabledPort })).chan 0).list.map (fun e => e.run) =
        [none] := by decide +kernel

theorem witness_LengthChangeReachesChannels :
    Offered (bound .running) 7 (.clipAmend ⟨7, false, 1, 5⟩) ∧ ((bound .running).clip 7).state = .live ∧
      1 ≠ ((bound .running).clip 7).length ∧ ((bound .running).chan 0).clip = 7 ∧
      ((bound .running).chan 0).pos > 16 * 0 + 15 := by decide

/-- A RUNNING channel at frame 100 with the records of periods 0 to 3 written. -/
def fourWritten : State := withChannel { boundChannel .running with dueTime := some 900000, lastRecord := some 3 }

theorem witness_LengthChangeReachesChannels_within :
    let old := courseOf fourWritten (fourWritten.chan 0)
    Offered fourWritten 7 (.clipAmend ⟨7, false, 103, 5⟩) ∧ Offered fourWritten 7 (.clipAmend ⟨7, false, 0, 5⟩) ∧
      (fourWritten.clip 7).growing = false ∧ (fourWritten.chan 0).pos ≤ 16 * 102 + 15 ∧
      (fourWritten.chan 0).recordAhead 3 = true ∧
      (∀ j < 3, old.posAfter j (fourWritten.chan 0).due =
        ({ old with lastFrame := 102 } : Course).posAfter j (fourWritten.chan 0).due) ∧
      old.posAfter 3 (fourWritten.chan 0).due ≠
        ({ old with lastFrame := 102 } : Course).posAfter 3 (fourWritten.chan 0).due ∧
      (fourWritten.ring 0).revoke = none := by decide

/-- 03, R65: the new range is left after frame 102, so the REVOKE names the fourth period; a length of 0 ends play at once. -/
theorem test_length_revokes :
    Output.record 524288 ⟨.revoke, .none, false, false, false, 7, 0, 3, 0, 0, 3600000⟩ ∈
        outputsSince fourWritten (nextOf part (exec (.clipAmend 7 ⟨7, false, 103, 5⟩) fourWritten)) ∧
      ((nextOf part (exec (.clipAmend 7 ⟨7, false, 0, 5⟩) fourWritten)).chan 0).pos = 0 := by decide +kernel

theorem witness_LengthChangeReachesChannels_released :
    Offered liveEdge 7 (.clipAmend ⟨7, false, 120100, 5⟩) ∧ 120100 ≠ (liveEdge.clip 7).length ∧
      (liveEdge.clip 7).growing = true ∧ (liveEdge.chan 0).pos ≤ 16 * 120099 + 15 ∧ (liveEdge.chan 0).follow = true ∧
      (liveEdge.chan 0).lastFrame + 1 = (liveEdge.clip 7).length := by decide

/-- A following channel held at an edge below the clip's last frame, in a state no run reaches. -/
def strayEdge : State :=
  { liveEdge with map := { liveEdge.map with
      clips := [(7, { clipSeven with bindCount := 1, growing := true, length := 120100 })] } }

theorem witness_LengthChangeReachesChannels_ending :
    Offered strayEdge 7 (.clipAmend ⟨7, false, 120000, 5⟩) ∧ 120000 ≠ (strayEdge.clip 7).length ∧
      (strayEdge.clip 7).growing = true ∧ (strayEdge.chan 0).atEdge = true ∧ (strayEdge.chan 0).lastFrame = 119999 ∧
      (strayEdge.chan 0).pos = 16 * 119999 := by decide

/-- 01, R10: the length raised and growing cleared at once release a channel from the old edge, and it plays on: the record of the
next period, which held at the edge, is revoked (R65). -/
theorem test_growth_ends_released :
    let t := nextOf part (exec (.clipAmend 7 ⟨7, false, 120100, 5⟩) liveEdge)
    (t.chan 0).state = .running ∧ (t.chan 0).edge = false ∧ (t.chan 0).lastRecord = some 0 ∧
      (t.chan 0).flags &&& ChanFlag.revised ≠ 0 ∧ (t.chan 0).flags &&& ChanFlag.playEnd = 0 := by decide +kernel

theorem witness_GroupFixWritesUniformSlot :
    Offered part 7 (.groupFix ⟨7, 64, 16383, 1, 0⟩) ∧ (part.clip 7).state = .live ∧
      0 + 64 * 1 ≤ (part.volume (part.clip 7).volume).capacity * 4096 ∧ part.map.serial = some 5000 ∧
      (part.clip 7).pageAbsent (16383 / 256) = true ∧ 0 < part.map.freePages ∧ (part.clip 7).slot 16383 = .empty := by
  decide

theorem witness_GroupListStartsItsFetch :
    Offered part 7 (.groupList ⟨7, 1564, 64, 4096⟩) ∧ Offered part 7 (.groupList ⟨7, 1564, 0, 4096⟩) ∧
      (part.clip 7).state = .live ∧ part.map.serial = some 5000 ∧ 0 < part.map.freeTables ∧
      (part.clip 7).pageAbsent (1564 / 256) = false := by decide

/-- A GROUP_LIST of one entry whose fetch is in flight. -/
def fetching : State :=
  { part with map := { part.map with fetch := some ⟨⟨19, 7, 0⟩, 7, 1564, 1, true, false⟩, freeTables := 65535 } }

theorem witness_FetchEndFillsTheGroup_good :
    fetching.map.fetch.isSome = true ∧ fetching.map.serial = some 5000 ∧
      (decodeList 1 (List.replicate 16 0)).findIdx? (badListEntry (byteCapacity fetching 7)) = none := by decide

theorem witness_FetchEndFillsTheGroup_bad :
    (decodeList 1 (List.replicate 16 255)).findIdx? (badListEntry (byteCapacity fetching 7)) = some 0 := by decide

/-- A CLIP_ASK in hand waits for the GROUP_LIST whose fetch is in flight. -/
def askWaits : State := { fetching with port := { enabledPort with hand := .held (.request 8 (.clipAsk 7)) } }

theorem witness_FetchEndFillsTheGroup_taking :
    askWaits.map.fetch.isSome = true ∧ canTake askWaits 22 = false ∧
      canTake { askWaits with map := { askWaits.map with fetch := none } } 22 = true := by decide

/-- 01: the map request that waited is taken as the GROUP_LIST is answered. -/
theorem test_fetchEnd_takes : (nextOf part (exec (.groupListFetchEnd none) askWaits)).port.head = 1 := by decide +kernel

theorem witness_GroupDropEmptiesTheSlot :
    Offered part 7 (.groupDrop ⟨7, 1564⟩) ∧ (part.clip 7).state = .live ∧ (part.clip 7).slot 1564 ≠ .empty ∧
      Offered part 7 (.groupDrop ⟨7, 16383⟩) ∧ (part.clip 7).slot 16383 = .empty := by decide

/-- A RUNNING channel with records standing from period 5 on for frame 100,130, and pin 0 over that frame, which the map
has not yet given it. -/
def revising : State :=
  let s := withChannel { boundChannel .running with
    dueIndex := 5, dueTime := some 900000, pos := 1602080, lastRecord := some 6, list := [⟨100130, 5, some 1, .absent, none⟩] }
  { s with store := { s.store with pins := [(0, ⟨.full, 7, 3, 100130, 1, 1, []⟩)] } }

theorem witness_GroupHanded :
    Offered revising 7 (.groupFix ⟨7, 64, 1564, 4096, 0⟩) ∧ Offered revising 7 (.groupDrop ⟨7, 1564⟩) ∧
      firstRecordIn (revising.chan 0) 1564 = some 5 ∧ (revising.chan 0).clip = 7 ∧ (revising.chan 0).state = .running ∧
      (revising.ring 0).revoke = none ∧ pinReached 7 1564 (revising.pin 0) = true ∧ TablesHeld revising := by
  unfold TablesHeld; decide

/-- 01, R16: a new group is handed to the pin, which covers its frame, and to the channel, whose REVOKE is written. -/
theorem test_groupFix_hands_on :
    let t := nextOf part (exec (.groupFix 7 ⟨7, 64, 1564, 4096, 0⟩) revising)
    (t.pin 0).covered.map Prod.fst = [100130] ∧ (t.chan 0).flags = ChanFlag.revised := by decide +kernel

theorem witness_ClipRetireFreesOrRetires :
    Offered part 7 (.clipRetire ⟨7, false⟩) ∧ (part.clip 7).state = .live ∧ (part.clip 7).bindCount = 0 ∧
      Offered (bound .held) 7 (.clipRetire ⟨7, false⟩) ∧ ((bound .held).clip 7).bindCount = 1 ∧
      Offered (bound .held) 7 (.clipRetire ⟨7, true⟩) ∧ ((bound .held).chan 0).clip = 7 := by decide

theorem witness_ClipAskReportsTheRecord :
    Offered part 7 (.clipAsk 7) ∧ (part.clip 7).state ≠ .free ∧ Offered part 7 (.clipAsk 4095) ∧
      (part.clip 4095).state = .free := by decide

/-- The part with pin 0 FULL over no listed frame of clip 7. -/
def pinned : State :=
  { part with
    views := [(0, { View.whole with useCount := 1 }), (3, ⟨true, shapeThree, 0⟩)]
    store := { part.store with pins := [(0, ⟨.full, 7, 0, 0, 1, 1, []⟩)] } }

/-- A READY entry for frame 100,130 of clip 7 under view 3, on store page 0. -/
def readyFrame : Entry :=
  { key := ⟨4211, 34, 3⟩, state := .ready, granted := true, orphan := false, bytes := 32768, short := false, lines := some 4
    pageNeed := 1, pages := [0], pieces := 2, outstanding := 0, recordNeed := 2, allotment := 2, refs := 0, pins := 0
    transfers := 0, deadlines := [], arrival := 0, stamp := 0, volume := some 2, loc := ⟨5299519488, 35397632⟩, place := []
    cleared := false }

/-- The part with that entry. -/
def stored : State := { part with store := { part.store with entries := [(0, some readyFrame)], freePages := 262143 } }

/-- The only group slot of that part is group 1564 of clip 7. -/
theorem stored_slot (h g : Nat) : (stored.clip h).slot g = if h = 7 ∧ g = 1564 then groupOf7 else .empty := by
  by_cases h7 : h = 7
  · subst h7
    have e : stored.clip 7 = clipSeven := rfl
    rw [e]
    by_cases p : g / 256 = 6
    · by_cases q : g % 256 = 28
      · have : g = 1564 := by omega
        subst this; rfl
      · have hg : g ≠ 1564 := by omega
        have q' : ¬28 = g % 256 := fun e => q e.symm
        simp [Clip.slot, Clip.page, DirPage.slot, clipSeven, tget, p, q', hg]
    · have hg : g ≠ 1564 := by omega
      have p' : ¬6 = g / 256 := fun e => p e.symm
      simp [Clip.slot, Clip.page, DirPage.slot, DirPage.absent, clipSeven, tget, p', hg]
  · have e : stored.clip h = Clip.initial := by
      have : ¬7 = h := fun e => h7 e.symm
      simp [stored, part, State.clip, tget, this]
    rw [e]; simp [h7, Clip.initial, Clip.slot, Clip.page, DirPage.slot, DirPage.absent, tget]

theorem witness_StepsKeepBindCounts_serials : TablesHeld stored ∧ SerialsHeld stored := by
  refine ⟨by unfold TablesHeld; decide, ?_, ?_, ?_, ?_, ?_, ?_⟩
  · intro h g k j hg e
    simp only [stored_slot] at hg e
    by_cases a : h = 7 ∧ g = 1564
    · by_cases b : k = 7 ∧ j = 1564
      · omega
      · simp [a, b, groupOf7, GroupSlot.serial] at e
    · simp [a] at hg
  · intro h g hg
    simp only [stored_slot] at hg ⊢
    by_cases a : h = 7 ∧ g = 1564
    · refine ⟨by simp [a, groupOf7, GroupSlot.serial], fun n hn => ?_⟩
      have : n = 5000 := by simpa [stored, part] using hn.symm
      simp [a, groupOf7, GroupSlot.serial, this]
    · simp [a] at hg
  · intro n hn
    have : n = 5000 := by simpa [stored, part] using hn.symm
    omega
  · intro h g hf
    by_cases h7 : h = 7
    · subst h7; exact absurd hf (by decide)
    · simp [stored_slot, h7]
  · intro f hf; simp [stored, part, State.reset] at hf
  · intro id e he _
    by_cases i0 : id = 0
    · subst i0
      have : e = readyFrame := by simpa [stored, State.entry, tget] using he.symm
      subst this
      exact ⟨by decide, 7, 1564, by rw [stored_slot]; decide⟩
    · have : ¬0 = id := fun e => i0 e.symm
      simp [stored, State.entry, tget, this] at he

/-- A WAITING entry with so many references and pins. -/
def waitingFrame (refs pins : Nat) : Entry :=
  { readyFrame with state := .filling, granted := false, pages := [], refs := refs, pins := pins }

theorem witness_StepsKeepTheNoticeLine_grant :
    (grantHead (pressed 20000 true [(0, some (waitingFrame 1 0))])).isSome = true ∧
      grantHead (pressed 20000 true [(0, some (waitingFrame 0 1))]) = none := by decide +kernel

theorem witness_AsksReportAndChangeNothing_frames :
    (part.clip 7).slot (100130 / 64) = groupOf7 ∧ 100130 % 64 = 34 ∧ 100130 < (part.clip 7).length ∧
      4096000000 + 34 * 35397632 = 5299519488 ∧ (findEntry part ⟨4211, 34, 3⟩).bind part.entry = none ∧
      findEntry stored ⟨4211, 34, 3⟩ = some 0 ∧ stored.entry 0 = some readyFrame ∧ (part.clip 7).length ≤ 120000 ∧
      (part.clip 7).slot 0 = .empty ∧ Offered stored 7 (.frameAsk ⟨7, 3, 100130⟩) := by decide

/-- 11: the items of FRAME_ASK for a frame that is in the store. -/
theorem test_frameAsk_found :
    answerOf (.frameAsk 7 ⟨7, 3, 100130⟩) stored = some (23, .ok, 0, [item1 2, item1 1, itemFlag true, item1 1, item1 0,
      item1 0, item2 0, item4 4211, item4 35397632, item8 5299519488]) := by decide +kernel

theorem witness_AsksReportAndChangeNothing :
    (Offered part 7 (.frameAsk ⟨7, 3, 100130⟩) ∧ (part.clip 7).state ≠ .free ∧ viewDefined part 3 = true) ∧
      (Offered opened 7 (.chanAsk ⟨0, 2⟩) ∧ (opened.chan 0).state ≠ .free) ∧ Offered part 7 (.storeAsk ⟨255, 0⟩) ∧
      (Offered pinned 7 (.storeAsk ⟨0, 0⟩) ∧ (pinned.pin 0).state ≠ .free) ∧ Offered part 7 .timeAsk := by decide

/-! ## Witnesses: views and placement -/

theorem witness_ViewDefineStoresTheShape :
    Offered part 7 (.viewDefine ⟨15, false, ⟨65535, 1048576, 65535, 8192, 4, 1048575, 1⟩⟩) ∧
      (part.view 15).useCount = 0 ∧ Offered part 7 (.viewDefine ⟨1, true, Shape.zero⟩) ∧ (part.view 1).useCount = 0 ∧
      Offered { part with views := [(0, View.whole), (3, ⟨true, shapeThree, 1⟩)] } 7 (.viewDefine ⟨3, true, Shape.zero⟩) := by
  decide

theorem witness_LineCountIsWhatFits :
    1 ≤ shapeThree.lineBytes ∧ 1 ≤ shapeThree.lineStep ∧ lineCountOf shapeThree 16470000 = 2 ∧
      lineCountOf shapeThree 16470000 < shapeThree.lineCount := by decide

/-- A volume of two members without parity. -/
def plainVolume : Volume := ⟨true, [0, 1], false, 16, 0, 1000, 62, 1984, 0⟩

theorem witness_PlainVolumePlacement :
    ⟨0, 0, 1, 0, 0, 0, [⟨0, 100, 0⟩], [1]⟩ ∈ planOf plainVolume 0 Shape.zero ⟨0, 100⟩ := by decide +kernel

theorem witness_ParityVolumePlacement :
    2 ≤ volumeTwo.members.length ∧ 20278 / (volumeTwo.members.length - 1) = 20279 / (volumeTwo.members.length - 1) := by
  decide

theorem witness_EverySelectedByteIsPlaced :
    (⟨5315915776, 5315923968, 0⟩ : ByteRange) ∈ byteRanges 3 shapeThree ⟨5299519488, 35397632⟩ := by decide +kernel

/-! ## Witnesses: channels -/

theorem witness_ChannelRequestsNeedAnOpenChannel :
    Offered part 7 (.chanHold 64) ∧ openChannelOf (.chanHold 64) = some 64 ∧ Offered part 7 (.chanHold 63) ∧
      (part.chan 63).state = .free := by decide

theorem witness_ChanOpenSetsTheRecord :
    Offered part 7 (.chanOpen ⟨63, false, 0, 33, 64, 1024, 268435456, 2700000, 0, 0⟩) ∧ (part.chan 63).state = .free ∧
      (part.chan 63).closeTicket = none ∧ (part.chan 63).missing = false ∧ (part.chan 63).edge = false := by decide

theorem witness_ChanBindSetsTheBinding :
    Offered opened 7 (.chanBind ⟨0, 3, false, false, true, 7, 7, 119999, 119999⟩) ∧ (opened.chan 0).state = .idle ∧
      (opened.clip 7).state = .live ∧ viewDefined opened 3 = true ∧ 119999 + 1 ≤ (opened.clip 7).length ∧
      (opened.chan 0).clip = 0 ∧ (opened.chan 0).view = none := by decide

theorem witness_ChanBindSetsTheBinding_superseding :
    let s := withChannel { boundChannel .cueing with
      cue := some ⟨aTicket, 1600⟩, cueExpiry := some 54000000, start := some ⟨.atReference, ⟨53, 8, 0⟩⟩ }
    Offered s 7 (.chanBind ⟨0, 0, false, true, true, 255, 7, 0, 0⟩) ∧ (s.chan 0).state = .cueing ∧
      (s.chan 0).cue = some ⟨aTicket, 1600⟩ ∧ (s.chan 0).start = some ⟨.atReference, ⟨53, 8, 0⟩⟩ := by decide

/-- Channel 0 is bound to clip 7, which is RETIRING, or LIVE; clip 8 is LIVE. -/
def twoClips (st : ClipState) : State :=
  let s := bound .held
  { s with map := { s.map with clips := [(7, { clipSeven with bindCount := 1, state := st }), (8, { clipSeven with pages := [] })] } }

theorem witness_ChanBindSetsTheBinding_rebinding :
    Offered (twoClips .live) 7 (.chanBind ⟨0, 3, false, false, true, 7, 8, 119999, 119999⟩) ∧
      ((twoClips .live).chan 0).clip = 7 ∧ ((twoClips .live).clip 7).state = .live ∧
      ((twoClips .retiring).clip 7).state = .retiring ∧ ((twoClips .retiring).clip 7).bindCount ≤ 1 ∧
      ((twoClips .live).chan 0).view = some 0 ∧ ((twoClips .retiring).clip 8).state = .live := by decide

/-- 03: the unbind that brings a RETIRING clip's count to 0 frees it. -/
theorem test_chanBind_frees_old :
    (nextOf part (exec (.chanBind 7 ⟨0, 3, false, false, true, 7, 8, 119999, 119999⟩) (twoClips .retiring))).clip 7 =
      Clip.initial := by decide +kernel

theorem witness_ChanOptionsAndDepthStored :
    Offered (bound .idle) 7 (.chanOptions ⟨0, true, false, true, 0, 119999, 2700000⟩) ∧
      ((bound .idle).chan 0).clip ≠ 0 ∧ ((bound .idle).clip 7).length = 120000 ∧
      Offered (bound .running) 7 (.chanOptions ⟨0, true, true, true, 119999, 0, 0⟩) ∧
      Offered (bound .idle) 7 (.chanDepth ⟨0, 255, 0, 65535⟩) := by decide

theorem positions_liveEdge : PositionsHeld liveEdge := by
  intro c
  have hc : liveEdge.chan c = if 0 = c then liveEdge.chan 0 else Channel.initial := by
    by_cases h : 0 = c <;> simp [h, liveEdge, withChannel, State.chan, tget]
  rw [hc]
  by_cases h : 0 = c
  · simp only [h, if_true]; subst h; decide
  · simp [h, Channel.initial]

theorem witness_ChanOptionsAndDepthStored_edge :
    Offered liveEdge 7 (.chanOptions ⟨0, true, true, true, 119999, 0, 0⟩) ∧ (liveEdge.chan 0).clip ≠ 0 ∧
      PositionsHeld liveEdge ∧ (liveEdge.chan 0).atEdge = true := ⟨by decide, by decide, positions_liveEdge, by decide⟩

theorem witness_CuesAndJumpsMoveThePosition :
    Offered (bound .idle) 7 (.chanCue ⟨0, 1919999⟩) ∧ Offered (bound .held) 7 (.chanJump ⟨0, 0⟩) ∧
      ((bound .held).chan 0).state ≠ .idle ∧ ((bound .held).clip 7).length ≠ 0 ∧
      Offered (bound .running) 7 (.chanJump ⟨0, 0⟩) ∧ ((bound .running).chan 0).state = .running := by decide

theorem witness_ChanStartStartsOrWaits :
    Offered (bound .held) 7 (.chanStart ⟨0, 0, 0⟩) ∧ Offered (bound .held) 7 (.chanStart ⟨0, 1, 1⟩) ∧
      Offered (bound .held) 7 (.chanStart ⟨0, 1, 0⟩) ∧ (bound .held).time.house = 0 ∧
      Offered (bound .held) 7 (.chanStart ⟨0, 2, 0⟩) ∧ Offered (bound .cued) 7 (.chanStart ⟨0, 3, 0⟩) ∧
      ((bound .held).clip ((bound .held).chan 0).clip).length ≠ 0 := by decide

/-- A channel whose cue waits, its expiry reached. -/
def cueing : State := withChannel { boundChannel .cueing with cue := some ⟨aTicket, 1600⟩, cueExpiry := some 0 }

/-- A channel whose start at a time just reached is pending. -/
def startDue : State := withChannel { boundChannel .cued with start := some ⟨.atTime 0, ⟨53, 8, 0⟩⟩ }

/-- A channel that waits for a reference pulse, its limit time reached. -/
def startWaits : State :=
  let s := withChannel { boundChannel .cued with start := some ⟨.atReference, ⟨53, 8, 0⟩⟩ }
  { s with time := { s.time with waits := [(0, some 0)] } }

theorem witness_ChannelTimesReached :
    (cueing.chan 0).state = .cueing ∧ (cueing.chan 0).cueExpiry = some 0 ∧ (cueing.chan 0).cue = some ⟨aTicket, 1600⟩ ∧
      (startDue.chan 0).start = some ⟨.atTime 0, ⟨53, 8, 0⟩⟩ ∧ tget none startWaits.time.waits 0 = some 0 ∧
      (startWaits.chan 0).start = some ⟨.atReference, ⟨53, 8, 0⟩⟩ ∧
      (startWaits.clip (startWaits.chan 0).clip).length ≠ 0 := by decide

/-- A RUNNING channel with its due time reached and a pending speed from the next period on. -/
def dueNow : State :=
  withChannel { boundChannel .running with dueTime := some 0, course := some ⟨32, 1, ⟨55, 8, 0⟩⟩ }

theorem witness_ChanHoldStopsInPlace :
    Offered dueNow 7 (.chanHold 0) ∧ (dueNow.chan 0).state = .running ∧ (dueNow.chan 0).course.isSome = true ∧
      Offered startDue 7 (.chanHold 0) ∧ (startDue.chan 0).state ≠ .running ∧ (startDue.chan 0).start.isSome = true ∧
      Offered cueing 7 (.chanHold 0) ∧ (cueing.chan 0).cue = some ⟨aTicket, 1600⟩ := by
  decide

/-- A RUNNING channel with the records of its due index and of period 1 written. -/
def writtenAhead : State :=
  withChannel { boundChannel .running with dueTime := some 900000, lastRecord := some 1 }

theorem witness_ChanHoldStopsInPlace_revoking :
    Offered writtenAhead 7 (.chanHold 0) ∧ (writtenAhead.chan 0).recordFrom (writtenAhead.chan 0).dueIndex = true ∧
      (writtenAhead.ring 0).closing = false ∧ (writtenAhead.ring 0).revoke = none ∧
      900000 = (writtenAhead.chan 0).dueTime.getD 0 % 4294967296 := by decide

/-- 05: the REVOKE of a hold names the due index and is written in the next slot. -/
theorem test_chanHold_revokes :
    Output.record 524288 ⟨.revoke, .none, false, false, false, 7, 0, 0, 0, 0, 900000⟩ ∈
      outputsSince writtenAhead (nextOf part (exec (.chanHold 7 0) writtenAhead)) := by decide +kernel

theorem witness_ChanSpeedStoresOrPends :
    Offered (bound .held) 7 (.chanSpeed ⟨0, 513, none⟩) ∧ (512 : Int) = max (-512) (min 512 513) ∧
      Offered dueNow 7 (.chanSpeed ⟨0, -513, some 1⟩) ∧ later 1 (dueNow.chan 0).dueIndex = true ∧
      Offered dueNow 7 (.chanSpeed ⟨0, -512, some 0⟩) ∧ later 0 (dueNow.chan 0).dueIndex = false := by decide

/-- A channel in a loop of one frame, its list the one entry without end. -/
def loopOfOne : State :=
  withChannel { boundChannel .running with
    inPoint := 100, lastFrame := 100, loop := true, speed := 5, dueTime := some 900000, primePeriods := 0
    list := [⟨100, 0, none, .absent, none⟩], course := some ⟨6, 4500, ⟨55, 8, 0⟩⟩ }

theorem witness_ChanSpeedStoresOrPends_superseding :
    Offered loopOfOne 7 (.chanSpeed ⟨0, 7, some 5000⟩) ∧ (loopOfOne.chan 0).course = some ⟨6, 4500, ⟨55, 8, 0⟩⟩ := by decide

/-- 04, R85: a pending speed far on leaves the loop's one entry without end; 03, R60: the older one is superseded. -/
theorem test_chanSpeed_far_on :
    ((nextOf part (exec (.chanSpeed 7 ⟨0, 7, some 5000⟩) loopOfOne)).chan 0).list = [⟨100, 0, none, .absent, none⟩] ∧
      answerOf (.chanSpeed 7 ⟨0, 7, some 5000⟩) loopOfOne = some (55, .superseded, 0, []) := by decide +kernel

/-- A channel whose transfer is in flight, its ring closing or not. -/
def transferring (closing : Bool) : State :=
  let s := bound .running
  { s with
    rings := [(0, { openRing with
      taken := 1, nextSlot := 1, closing := closing,
      transfer := some ⟨0, 0, ⟨.frame, .none, false, false, false, 7, 0, 0, 100, 4096, 900000⟩, false⟩ })] }

theorem witness_ChanCloseFreesTheChannel :
    Offered (bound .held) 7 (.chanClose 0) ∧ ((bound .held).ring 0).transfer = none ∧
      Offered (transferring false) 7 (.chanClose 0) ∧ ((transferring false).ring 0).transfer.isSome = true ∧
      ((bound .held).chan 0).view = some 0 ∧ ((bound .held).clip 7).state = .live ∧
      Offered dueNow 7 (.chanClose 0) ∧ (dueNow.chan 0).course.isSome = true := by decide

theorem witness_ChanCloseFreesTheChannel_retiring :
    Offered (twoClips .retiring) 7 (.chanClose 0) ∧ ((twoClips .retiring).clip 7).state = .retiring ∧
      ((twoClips .retiring).clip 7).bindCount ≤ 1 := by decide

/-- 03, R68: the close that brings a RETIRING clip's count to 0 frees it. -/
theorem test_chanClose_frees :
    (nextOf part (exec (.chanClose 7 0) (twoClips .retiring))).clip 7 = Clip.initial := by decide +kernel

theorem witness_DueTimeMovesOn :
    (dueNow.chan 0).dueTime = some 0 ∧ 0 ≤ dueNow.time.house ∧
      (courseOf dueNow (dueNow.chan 0)).next (dueNow.chan 0).due = some ⟨1, 1616, false⟩ ∧
      (dueNow.chan 0).course = some ⟨32, (dueNow.chan 0).dueIndex + 1, ⟨55, 8, 0⟩⟩ ∧
      (dueNow.chan 0).recordFrom (dueNow.chan 0).dueIndex = false := by decide

theorem witness_DueTimeMovesOn_end :
    let s := withChannel { boundChannel .running with dueTime := some 0, pos := 1919999, lastRecord := some 0 }
    (courseOf s (s.chan 0)).next (s.chan 0).due = none ∧ (s.chan 0).recordFrom (s.chan 0).dueIndex = true := by decide

theorem witness_DueTimeMovesOn_full :
    let s : State := { dueNow with rings := [(0, { openRing with produce := 4 })] }
    (s.chan 0).recordFrom (s.chan 0).dueIndex = false ∧ (s.ring 0).free = 0 := by decide

/-- A RUNNING channel at its due time, with a READY entry that began a period earlier and was delivered, or with none. -/
def repeatDue : State :=
  withChannel { boundChannel .running with
    dueTime := some 0, priorShown := true, list := [⟨100, 4294967295, some 3, .ready, none⟩] }

theorem witness_DueTimeMovesOn_records :
    (repeatDue.chan 0).entryAt 0 = some ⟨100, 4294967295, some 3, .ready, none⟩ ∧
      (⟨100, 4294967295, some 3, .ready, none⟩ : ListEntry).beginsBefore 0 = true ∧ 0 < (repeatDue.ring 0).free ∧
      (repeatDue.ring 0).transfer = none ∧ (repeatDue.chan 0).recordFrom 0 = false ∧
      (dueNow.chan 0).entryAt 0 = none ∧ 0 < (dueNow.ring 0).free := by decide

/-- A void transfer of a period is in flight on the ring of such a channel. -/
def behindVoid (n : Word32) : State :=
  { repeatDue with
    rings := [(0, { openRing with
      taken := 1, nextSlot := 1
      transfer := some ⟨0, 0, ⟨.frame, .none, false, false, false, 7, 0, n, 100, 4096, 900000⟩, true⟩ })] }

theorem witness_DueTimeMovesOn_void :
    later (0 : Word32) 2 = false ∧ later (0 : Word32) 4294967295 = true ∧ 0 < ((behindVoid 2).ring 0).free ∧
      ((behindVoid 2).chan 0).recordFrom 0 = false := by decide

/-- The kinds and periods of the records written between two states. -/
def recordsSince (s t : State) : List (RecordKind × Word32) :=
  (outputsSince s t).filterMap (fun o => match o with
    | .record _ r => some (r.kind, r.period)
    | _ => none)

/-- 05, R97: a void transfer bars the records of later periods alone. Those up to its own are repeated behind it. -/
theorem test_repeats_behind_void_transfer :
    recordsSince (behindVoid 1) (nextOf part (exec .ringEnableOff (behindVoid 1))) = [(.again, 0), (.again, 1)] ∧
      recordsSince (behindVoid 4294967295) (nextOf part (exec (.dueTime 0) (behindVoid 4294967295))) = [(.miss, 0)] := by
  decide +kernel

theorem witness_DueTimeMovesOn_prime :
    let s := withChannel { boundChannel .running with dueTime := some 0, phase := .prime, remaining := 1 }
    (s.chan 0).phase = .prime ∧ (s.chan 0).remaining ≤ 1 ∧ s.store.overload = false ∧
      ∀ e ∈ (s.chan 0).list, e.endsBefore ((s.chan 0).dueIndex + 1) = true → e.ref = none := by decide

/-- A channel in PRIME at its due time, in overload: the entry that passes is the last user of one page, so many pages being
free beside it. -/
def primePressed (free : Nat) : State :=
  let s := withChannel { boundChannel .running with
    dueTime := some 0, lastRecord := some 0, phase := .prime, remaining := 2, list := [⟨100, 0, some 1, .ready, some 0⟩] }
  { s with store := { s.store with
      freePages := free, overload := true, entries := [(0, some { readyFrame with refs := 1 })] } }

theorem witness_DueTimeMovesOn_overload :
    ∃ e ∈ ((primePressed 32767).chan 0).list,
      e.endsBefore (((primePressed 32767).chan 0).dueIndex + 1) = true ∧ e.ref ≠ none := by decide

/-- 04, R90 steps 2 and 3, and 06, R122: the count falls where the release of the passed entry makes 32,768 pages available, and
stands where it makes one fewer. -/
theorem test_prime_counts_as_overload_ends :
    ((nextOf part (exec (.dueTime 0) (primePressed 32767))).chan 0).remaining = 1 ∧
      ((nextOf part (exec (.dueTime 0) (primePressed 32766))).chan 0).remaining = 2 := by decide +kernel

/-- 05: a due time with nothing resolved writes a MISS with reason NOT_READY. -/
theorem test_dueTime_misses :
    Output.record 524288 ⟨.miss, .notReady, false, false, false, 7, 0, 0, 100, 0, 0⟩ ∈
      outputsSince dueNow (nextOf part (exec (.dueTime 0) dueNow)) := by decide +kernel

theorem witness_PositionsStayInRange :
    (⟨100, 103, true, false, 40, none⟩ : Course).next ⟨0, 1640, false⟩ = some ⟨1, 1616, false⟩ ∧
      (⟨100, 103, false, true, 40, none⟩ : Course).next ⟨0, 1640, false⟩ = some ⟨1, 1648, true⟩ ∧
      (⟨100, 103, false, false, 40, none⟩ : Course).next ⟨0, 1640, false⟩ = none := by decide

theorem witness_PositionsStayInRange_edge :
    PositionsHeld { liveEdge with pending := [.dueTime 0] } ∧
      ∃ t, step { liveEdge with pending := [.dueTime 0] } = .next t := ⟨positions_liveEdge, _, rfl⟩

theorem witness_PositionsStayInRange_law : PositionsHeld setUp ∧ ∃ t, step setUp = .next t :=
  ⟨fun c => by simp [setUp, State.reset, State.chan, tget, Channel.initial], _, rfl⟩

/-! ## Witnesses: delivery and the store -/

theorem witness_SlotReturnFreesSlots :
    let s : State := { bound .running with rings := [(0, { openRing with produce := 4 })] }
    Offered s 7 (.slotReturn ⟨0, 255⟩) ∧ 4 = min 255 (s.ring 0).hostHeld ∧ Offered s 7 (.slotReturn ⟨0, 0⟩) := by decide

theorem witness_TransferEndWritesTheRecord :
    ((transferring false).ring 0).transfer.isSome = true ∧ ((transferring false).ring 0).closing = false ∧
      ((transferring true).ring 0).transfer.isSome = true ∧ ((transferring true).ring 0).closing = true := by decide

/-- Channel 0 HELD with its last transfer in flight, its store entry READY under that hold and so many references. -/
def holding (refs : Nat) (cleared : Bool) : State :=
  let s := transferring false
  let e := { readyFrame with refs := refs, transfers := 1, orphan := cleared, cleared := cleared }
  { s with
    chans := [(0, boundChannel .held)]
    store := { stored.store with entries := [(0, some e)], stamps := 9, arrivals := 5 } }

theorem witness_TransferEndWritesTheRecord_hold :
    (∀ refs ∈ [0, 1], ∀ cleared ∈ [false, true], TablesHeld (holding refs cleared)) ∧
      ((holding 1 false).chan 0).state ≠ .running ∧ ((holding 1 false).ring 0).transfer.map Transfer.entry = some 0 ∧
      ((holding 1 false).entry 0).map (fun e => (e.state, e.refs, e.transfers)) = some (.ready, 1, 1) ∧
      (holding 1 false).context 0 = none ∧
      ((holding 0 true).entry 0).map (fun e => (e.refs, e.pins, e.transfers, e.cleared)) = some (0, 0, 1, true) := by
  unfold TablesHeld; decide

/-- 05, R99, R113, R124: with a reference left the entry stands without the hold; without one it takes a release stamp, or is freed
where SERVICE_CLEAR has left it. -/
theorem test_transferEnd_releases_hold :
    (((nextOf part (exec (.transferEnd 0) (holding 1 false))).entry 0).map (fun e => (e.refs, e.transfers)) = some (1, 0)) ∧
      (((nextOf part (exec (.transferEnd 0) (holding 0 false))).entry 0).map (fun e => (e.transfers, e.stamp)) =
        some (0, 9)) ∧
      (nextOf part (exec (.transferEnd 0) (holding 0 true))).entry 0 = none := by decide +kernel

/-- A closing channel's transfer is the last a SERVICE_CLEAR waits for. -/
def clearWaits : State :=
  let s := transferring true
  { s with chans := [], port := { enabledPort with clearWait := some ⟨⟨3, 8, 0⟩, 1, 1, 0⟩, reserved := 1 } }

theorem witness_TransferEndWritesTheRecord_clear :
    clearWaits.port.clearWait = some ⟨⟨3, 8, 0⟩, 1, 1, 0⟩ ∧ twf Ring.initial clearWaits.rings = true ∧
      (clearWaits.ring 0).closing = true ∧ ∀ k, k ≠ 0 → (clearWaits.ring k).transfer = none :=
  ⟨by decide, by decide, by decide, fun k h => by
    have h' : ¬0 = k := fun e => h e.symm
    simp [clearWaits, transferring, bound, withChannel, part, State.reset, State.ring, tget, h', Ring.initial]⟩

/-- 10: the last transfer's end answers the SERVICE_CLEAR. -/
theorem test_transferEnd_answers_clear :
    answerOf (.transferEnd 0) clearWaits = some (3, .ok, 0, [item1 1, item1 1, item2 0]) := by decide +kernel

theorem witness_ServiceClearReturnsToRest_transfer :
    Offered (transferring false) 7 .serviceClear ∧ anyTransfer (transferring false) = true ∧
      (transferring false).handed = [] := by decide

theorem witness_PinsSetAndDropped :
    Offered part 7 (.pinSet ⟨3, 7, 1048575, 1⟩) ∧ (part.clip 7).state = .live ∧ (part.pin 0).state = .free ∧
      viewDefined part 3 = true ∧ pinnedPages part + addedPages part ⟨3, 7, 1048575, 1⟩ ≤ 131072 ∧
      pinnedEntries part + (newWants part 7 3 1048575 1).length ≤ 32768 ∧ Offered pinned 7 (.pinDrop 0) ∧
      (pinned.pin 0).state ≠ .free := by decide

/-- 06: a pin over frames 100,130 and 100,131 covers both, the one in the store and a new one, a page each. -/
theorem test_pinSet_total :
    answerOf (.pinSet 7 ⟨3, 7, 100130, 2⟩) stored = some (80, .ok, 0, [item1 0, item2 2, item4 2, item4 2]) := by
  decide +kernel

/-! ## Witnesses: links, volumes, members -/

/-- Member 4's link with one tag in a state. -/
def withTag (t : TagState) (failures : Nat) : State := withLink 4 { onlineLink 0 with tags := [(7, t)], failures := failures }

theorem witness_ReadEndsCounted :
    (withTag (.busy 0 .playout) 2).tag 4 7 = .busy 0 .playout ∧ min 3 (((withTag (.busy 0 .playout) 2).link 4).failures + 1) = 3 ∧
      0 ≤ (withTag (.busy 0 .playout) 2).time.house ∧ ((withTag (.busy 0 .playout) 2).link 4).member = .online ∧
      part.tag 4 7 = .free ∧ (withTag .quarantined 0).tag 4 7 = .quarantined := by decide

/-- One extract of the last piece of an entry a list refers to, read from member 4 under tag 0. -/
def lastPiece : Piece := ⟨0, 0, 1, 0, 4, 2048, [⟨2, 4, 0⟩], [5, 6, 7, 8, 9]⟩

/-- A fill whose last piece is being read directly, or as the last read of its set. -/
def filling (st : PieceStatus) : State :=
  { part with
    links := [(4, { onlineLink 0 with tags := [(0, .busy 10800000 .playout)] })]
    store := { part.store with
      entries := [(0, some { readyFrame with state := .filling, outstanding := 1, refs := 1, bytes := 4 })] }
    sched := { part.sched with
      contexts := [(0, some ⟨[⟨lastPiece, false, st⟩], 0, false⟩)]
      reads := [⟨4, 2048, 1, 0, 0, false, .playout, none, 0, some (0, .playout), false⟩], freeRecords := 4095 } }

theorem witness_ReadEndsCounted_fill :
    (filling .direct).tag 4 0 = .busy 10800000 .playout ∧ wantedBytes (filling .direct) 4 0 = 4096 ∧
      (issuedRead (filling .direct) 4 0).isSome = true ∧
      (filling .direct).context 0 = some ⟨[⟨lastPiece, false, .direct⟩], 0, false⟩ ∧
      (filling (.set 1 true)).context 0 = some ⟨[⟨lastPiece, false, .set 1 true⟩], 0, false⟩ ∧
      ((filling .direct).entry 0).isSome = true ∧ twf none (filling .direct).store.entries = true := by decide

/-- 07: an extract's bytes go to their delivered places, XORed where earlier reads of the set are in place. -/
theorem test_applyExtracts :
    let m := applyExtracts readyFrame false [9, 9, 5, 6, 7, 8] [⟨2, 4, 0⟩] []
    m = [(0, 5), (1, 6), (2, 7), (3, 8)] ∧
      applyExtracts readyFrame true [9, 9, 5, 6, 7, 0] [⟨2, 4, 0⟩] m = [(3, 8)] := by decide

/-- Member 4 is DRAINING with one read in flight and a hold waiting; or its other tags are QUARANTINED. -/
def draining (others : TagState) : State :=
  withLink 4 { onlineLink 0 with
    member := .draining, hold := some ⟨98, 8, 0⟩, drainOk := 3
    tags := if others = .free then [(0, .busy 0 .playout)]
      else (0, .busy 0 .playout) :: (List.range 7).map (fun k => (k + 1, others)) }

theorem witness_ReadEndsCounted_drain :
    ((draining .free).link 4).member = .draining ∧ (draining .free).tag 4 0 = .busy 0 .playout ∧
      (∀ k < 8, k ≠ 0 → ((draining .free).tag 4 k).isBusy = false) ∧ ((draining .free).link 4).hold = some ⟨98, 8, 0⟩ ∧
      (∃ j < 8, j ≠ 0 ∧ (draining .free).tag 4 j ≠ .quarantined) ∧ ((draining .free).link 4).failures < 2 ∧
      (∀ j < 8, j ≠ 0 → (draining .quarantined).tag 4 j = .quarantined) := by decide

/-- 08: the last read's end answers the hold with its counts; all 8 tags QUARANTINED fail the member. -/
theorem test_drain_ends :
    answerOf (.tagExpiry 4 0) (draining .free) = some (98, .ok, 0, [item2 3, item2 1]) ∧
      answerOf (.tagExpiry 4 0) (draining .quarantined) = some (98, .failed, 0, []) := by decide +kernel

theorem witness_LinkEventsActOnTheirMember_down :
    let s := withLink 4 { onlineLink 0 with ret := some (⟨100, 8, 0⟩, 0), tags := [(7, .busy 5 .pin)] }
    (s.link 4).ret = some (⟨100, 8, 0⟩, 0) ∧ s.tag 4 7 = .busy 5 .pin ∧ 0 ≤ s.time.house := by decide

theorem witness_LinkEventsActOnTheirMember_up :
    (part.link 0).resetSeen = false ∧ (part.link 4).resetSeen = true := by decide

theorem witness_LinkEventsActOnTheirMember_reset :
    let s := withLink 4 { onlineLink 0 with member := .failed, failures := 3, ret := some (⟨100, 8, 0⟩, 27000000) }
    (s.link 4).resetSeen = true ∧ (s.link 4).ret = some (⟨100, 8, 0⟩, 27000000) ∧ (part.link 0).resetSeen = false := by
  decide

theorem witness_VolumesDefinedAndDissolved :
    let s := { part with volumes := [(2, { volumeTwo with clipCount := 0 })] }
    let a : VolumeDefineArgs := ⟨2, 3, true, 256, [4, 5, 0], 1099511627520, 256⟩
    Offered s 7 (.volumeDefine a) ∧ a.unit ∈ [16, 32, 64, 128, 256] ∧ a.members.Nodup ∧ (∀ m ∈ a.members, m < 16) ∧
      a.base + a.memberLength ≤ 1099511627776 ∧ (s.volume 2).clipCount = 0 ∧
      (∀ m ∈ a.members, (s.link m).member = .unused ∨ (s.link m).volume = some 2) ∧
      (∀ m ∈ (s.volume 2).members, memberBusy s m = false) ∧ (s.link 4).up = true ∧ s.tag 4 0 ≠ .quarantined ∧
      (s.link 0).up = false ∧ 9 ∉ a.members ∧ Offered s 7 (.volumeDissolve 2) ∧ (s.volume 2).defined = true := by
  decide

theorem witness_MembersHeldAndReleased :
    Offered part 7 (.memberHold 4) ∧ (part.link 4).member = .online ∧ (part.link 4).volume = some 2 ∧
      (part.volume 2).parity = true ∧ (∀ k ∈ (part.volume 2).members, k = 4 ∨ (part.link k).member = .online) ∧
      (∀ k < 8, (part.tag 4 k).isBusy = false) ∧
      (∃ k < 8, ((withTag (.busy 5 .pin) 0).tag 4 k).isBusy = true) ∧
      (∃ k ∈ (part.volume 2).members, k ≠ 5 ∧ ((withLink 4 { onlineLink 0 with member := .held }).link k).member ≠ .online) ∧
      ((withLink 4 { onlineLink 0 with member := .held }).link 4).member = .held := by decide

theorem witness_MembersHeldAndReleased_waiting :
    let s := withLink 4 { onlineLink 0 with member := .draining, hold := some ⟨98, 8, 0⟩ }
    Offered s 7 (.memberRelease 4) ∧ (s.link 4).member = .draining ∧ (s.link 4).hold = some ⟨98, 8, 0⟩ := by decide

theorem witness_MemberReturnSendsReset :
    let s := withLink 4 { onlineLink 0 with member := .failed, failures := 3 }
    Offered s 7 (.memberReturn 4) ∧ (s.link 4).member = .failed ∧ (s.link 4).ret = none ∧ (s.link 4).up = true ∧
      Offered s 7 (.memberReturn 16) ∧ Offered s 7 (.memberReturn 5) ∧ (s.link 5).member ≠ .failed ∧
      (s.link 15).member = .unused := by decide

theorem witness_MemberAskReportsTheMember : Offered part 7 (.memberAsk 15) ∧ Offered part 7 (.memberAsk 16) := by decide

/-! ## Witnesses: time -/

/-- The part with a measurement as given. -/
def measuring (q : Measurement) : State := { part with time := { part.time with measure := q } }

theorem witness_CyclesAndPulses :
    (measuring ⟨.armed, some ⟨112, 8, 0⟩, 27000, 0, 0, 54000⟩).time.measure.state = .armed ∧
      (measuring ⟨.counting, some ⟨112, 8, 0⟩, 27000, 6, 0, 54000⟩).time.measure.pulses < 7 ∧
      tget none startWaits.time.waits 0 ≠ none ∧ twf none startWaits.time.waits = true ∧
      (startWaits.chan 0).start = some ⟨.atReference, ⟨53, 8, 0⟩⟩ := by decide

theorem witness_CalibrationsMeasured_arming :
    Offered part 7 (.calibrate 27000) ∧ Offered part 7 (.calibrate 27000000) ∧ part.time.measure.state = .idle := by decide

theorem witness_CalibrationsMeasured_judging :
    let s := measuring ⟨.counting, some ⟨112, 8, 0⟩, 27000, 7, 216054, 0⟩
    s.time.measure.pulses = 7 ∧ (216000 : Nat) = 8 * s.time.measure.period ∧ ((216054 : Int) - 216000).natAbs * 4000 ≤ 216000 ∧
      ¬((216055 : Int) - 216000).natAbs * 4000 ≤ 216000 ∧ s.time.measure.limit ≤ s.time.house := by decide

theorem witness_CalibrationsMeasured_lost :
    let t : Timebase := { Timebase.initial with house := 54001, monitor := true, lastPulse := some 0, refPeriod := some 27000 }
    t.monitor = true ∧ t.lastPulse = some 0 ∧ t.refPeriod = some 27000 ∧ 0 + 2 * 27000 < t.house ∧ t.refLost = false := by
  decide

end Sys2Proof.Tests
end

/-! SUPPORT. `StepsKeepBindCounts` fails at its second law: that law says nothing of an ABANDONED entry, nor of the context
such an entry may stand under, so a step can fail the entry, which makes it findable, under a key no group slot carries. -/

namespace Sys2Proof.Machine

/-- An ABANDONED entry under serial 5, which no group slot carries. -/
def strayEntry : Entry where
  key := ⟨5, 0, 0⟩
  state := .abandoned
  granted := true
  orphan := false
  bytes := 0
  short := false
  lines := none
  pageNeed := 0
  pages := []
  pieces := 1
  outstanding := 1
  recordNeed := 1
  allotment := 1
  refs := 0
  pins := 0
  transfers := 0
  deadlines := []
  arrival := 0
  stamp := 0
  volume := none
  loc := ⟨0, 0⟩
  place := []
  cleared := false

/-- A fill context that is not abandoned, with one piece still to be handed, on a member that is not ONLINE. -/
def strayContext : Context := ⟨[⟨⟨0, 0, 1, 0, 0, 0, [], []⟩, false, .unhanded⟩], 1, false⟩

/-- The part after reset, with the stray entry in record 0 under that context. -/
def strayState : State :=
  { State.reset with
    store := { State.reset.store with entries := [(0, some strayEntry)] }
    sched := { State.reset.sched with contexts := [(0, some strayContext)] } }

/-- The same with a RING_ENABLE_OFF waiting, which has no effect on a DISABLED port but ends an event. -/
def strayQueue : State := { strayState with pending := [.ringEnableOff] }

theorem strayQueue_step : step strayQueue = .next (endEvent strayState strayState) := rfl

theorem strayQueue_tables : TablesHeld strayQueue := by unfold TablesHeld; decide

theorem strayQueue_slot (h g : Nat) : (strayQueue.clip h).slot g = .empty := rfl

theorem strayQueue_entry {id : Nat} {e : Entry} (h : strayQueue.entry id = some e) : e = strayEntry := by
  simp only [State.entry, strayQueue, strayState, tget] at h
  split at h
  · exact (Option.some.inj h).symm
  · cases h

theorem strayQueue_serials : SerialsHeld strayQueue := by
  refine ⟨fun h g _ _ hne => absurd (strayQueue_slot h g) hne, fun h g hne => absurd (strayQueue_slot h g) hne,
    fun n hn => ?_, fun h g _ => strayQueue_slot h g, ?_, fun id e he hf => ?_⟩
  · exact (Option.some.inj hn).le
  · rintro f ⟨⟩
  · rw [strayQueue_entry he] at hf
    cases hf

/-- The handing of its piece fails the stray entry (R42), which is then findable under serial 5. -/
theorem strayState_findable : ((endEvent strayState strayState).entry 0).map (fun e => (e.findable, e.key)) =
    some (true, ⟨5, 0, 0⟩) := by decide

theorem strayState_slot (h g : Nat) : ((endEvent strayState strayState).clip h).slot g = .empty := by
  simp only [State.clip, (endEvent_ends strayState strayState).map]
  rfl

/-- Refutes O9: in a state that meets the second law an ABANDONED entry of an unknown serial, under a context that still hands
its pieces, is failed by the step and found from then on (`strayQueue`). -/
theorem not_stepsKeepBindCounts : ¬ Obligations.StepsKeepBindCounts := by
  rintro ⟨-, serials, -⟩
  obtain ⟨-, -, -, -, -, findable⟩ := serials _ _ strayQueue_tables strayQueue_serials strayQueue_step
  obtain ⟨e, he, hk⟩ := Option.map_eq_some_iff.1 strayState_findable
  obtain ⟨hf, hkey⟩ := Prod.mk.inj hk
  obtain ⟨-, h, g, hframe⟩ := findable 0 e he hf
  rw [strayState_slot] at hframe
  cases hframe

end Sys2Proof.Machine

/-! SUPPORT. From an act to its event: frames composed, the event of an offered request by its owner's act, and what the
end of an event leaves exactly. -/

namespace Sys2Proof.Machine

/-! ## Frames -/

/-- Where an act touches less, it keeps the wider frame. -/
theorem Frame.of_empty {s t : State} (w : Touched) (f : Frame {} s t) : Frame w s t where
  map _ := f.map rfl
  views _ := f.views rfl
  volumes _ := f.volumes rfl
  pins _ := f.pins rfl
  time _ := f.time rfl
  settings _ := f.settings rfl
  partFlags _ := f.partFlags rfl
  draws _ := f.draws rfl
  chans c _ := f.chans c id
  rings c _ := f.rings c id
  links m _ := f.links m id
  pending := f.pending
  out := f.out

/-- Frames compose where the first of the two leaves house time. -/
theorem Frame.trans {w : Touched} {s t u : State} (a : Frame w s t) (b : Frame w t u)
    (n : t.now = s.now := by rfl) : Frame w s u where
  map h := (b.map h).trans (a.map h)
  views h := (b.views h).trans (a.views h)
  volumes h := (b.volumes h).trans (a.volumes h)
  pins h := (b.pins h).trans (a.pins h)
  time h := (b.time h).trans (a.time h)
  settings h := (a.settings h).trans (b.settings h)
  partFlags h := (a.partFlags h).trans (b.partFlags h)
  draws h := (b.draws h).trans (a.draws h)
  chans c h := (a.chans c h).trans (b.chans c h)
  rings c h := (b.rings c h).trans (a.rings c h)
  links m h := (a.links m h).trans n (b.links m h)
  pending := b.pending.trans a.pending
  out := a.out.trans b.out

/-- What consequences do keeps every frame. -/
theorem Follows.frame {s t : State} (w : Touched) (f : Follows s t) : Frame w s t where
  map _ := f.map
  views _ := f.views
  volumes _ := f.volumes
  pins _ := f.pins
  time _ := f.time
  settings _ := by constructor <;> rw [f.port]
  partFlags _ := by rw [f.port]; exact FlagsAdded.refl _ _
  draws _ := f.freeDraws
  chans c _ := ⟨f.chans c, f.state c, (f.flags c).wider (by decide)⟩
  rings c _ := f.rings c
  links m _ := ⟨f.links m, f.tags m⟩
  pending := f.pending
  out := f.out

/-- A write of the map alone keeps the frame of a command that touches the map. -/
theorem Frame.ofMap {w : Touched} (s : State) (x : FrameMap) (hw : w.map = true) : Frame w s { s with map := x } where
  map h := absurd (hw.symm.trans h) (by decide)
  views _ := rfl
  volumes _ := rfl
  pins _ := rfl
  time _ := rfl
  settings _ := ⟨rfl, rfl, rfl, rfl, rfl, rfl, rfl, rfl, rfl, rfl⟩
  partFlags _ := FlagsAdded.refl _ _
  draws _ := rfl
  chans c _ := ChanStands.refl s c
  rings _ _ := rfl
  links m _ := LinkStands.refl s m
  pending := rfl
  out := List.prefix_rfl

/-- A write of the volumes alone keeps the frame of a command that touches the volumes. -/
theorem Frame.ofVolumes {w : Touched} (s : State) (x : Tab Volume) (hw : w.volumes = true) :
    Frame w s { s with volumes := x } where
  map _ := rfl
  views _ := rfl
  volumes h := absurd (hw.symm.trans h) (by decide)
  pins _ := rfl
  time _ := rfl
  settings _ := ⟨rfl, rfl, rfl, rfl, rfl, rfl, rfl, rfl, rfl, rfl⟩
  partFlags _ := FlagsAdded.refl _ _
  draws _ := rfl
  chans c _ := ChanStands.refl s c
  rings _ _ := rfl
  links m _ := LinkStands.refl s m
  pending := rfl
  out := List.prefix_rfl

theorem Follows.now {s t : State} (f : Follows s t) : t.now = s.now := congrArg Timebase.house f.time

/-! ## The event of an offered request -/

/-- The row of an offered request is the act of its owner, then the end of the event (R174, R175). -/
theorem exec_offered {s : State} {tag : Nat} {r : Request} (h : Offered s tag r) : exec (rowOf tag r) s =
    .next (endEvent (takeBase s r) (ownerAct r (ticketOf s r.kind tag) (beginTake s))) := by
  cases r <;> exact congrArg Host.Outcome.next (takeAs_offered h _)

/-- The frame of an act on the state with the request taken is the frame of its event. -/
theorem Frame.taken {w : Touched} {s s1 t : State} (f : Frame w (beginTake s) s1) (e : Ends s1 t)
    (n : s1.now = s.now := by rfl) : Frame w s t :=
  (((beginTake_frame s).of_empty w).trans f).ends n e

theorem handed_replyDetail (s : State) (t : Ticket) (r : Result) (d : BitVec 8) (is : List Item) :
    (⟨t, r, false, d, is⟩ : Handed) ∈ (s.replyDetail t r d is).handed :=
  List.mem_append_right _ (List.mem_singleton_self _)

theorem handed_reply (s : State) (t : Ticket) (r : Result) (is : List Item) :
    (⟨t, r, false, 0, is⟩ : Handed) ∈ (s.reply t r is).handed := handed_replyDetail s t r 0 is

/-- The answer an act ends with is written in its event. -/
theorem answered_reply {s s1 : State} (s0 : State) {t : Ticket} {r : Result} {is : List Item} (p : s.out <+: s1.out) :
    Answered s (endEvent s0 (s1.reply t r is)) t.kind t.tag r 0 is :=
  (endEvent_ends s0 (s1.reply t r is)).answers p (handed_reply s1 t r is)

/-! ## CLIP_MAKE -/

/-- The lowest FREE handle (R8). -/
theorem freeHandle_eq_some {s : State} {h : Nat} (h1 : 1 ≤ h) (h2 : h ≤ 4095) (hf : (s.clip h).state = .free)
    (low : ∀ k < h, k = 0 ∨ (s.clip k).state ≠ .free) : freeHandle s = some h := by
  unfold freeHandle
  rw [List.find?_map]
  have hp : (List.range Config.maxClip).find? ((fun h => (s.clip h).state == .free) ∘ (· + 1)) = some (h - 1) := by
    refine List.find?_range_eq_some.2 ⟨?_, ?_, fun j hj => ?_⟩
    · simpa [Nat.sub_add_cancel h1] using hf
    · simp only [List.mem_range, Config.maxClip]; omega
    · simpa using low (j + 1) (by omega)
  rw [hp, Option.map_some, Nat.sub_add_cancel h1]

theorem doClipMake_ok {s : State} {a : ClipMakeArgs} {h : Nat} (t : Ticket) (hv : a.volume < 8)
    (hd : (s.volume a.volume).defined = true) (hr : a.rate ≤ 7) (hh : freeHandle s = some h) :
    doClipMake a t s = (countClip (s.setClip h (newClip a)) a.volume (· + 1)).reply t .ok [item2 h] := by
  unfold doClipMake
  rw [if_neg (by simp [Config.volumes, hd]; omega), if_neg (by omega), hh]

theorem setClip_frame {w : Touched} (s : State) (h : Nat) (c : Clip) (hw : w.map = true) : Frame w s (s.setClip h c) :=
  Frame.ofMap s _ hw

theorem countClip_frame {w : Touched} (s : State) (v : Nat) (f : Nat → Nat) (hw : w.volumes = true) :
    Frame w s (countClip s v f) := Frame.ofVolumes s _ hw

@[simp] theorem countClip_clip (s : State) (v : Nat) (f : Nat → Nat) (h : Nat) : (countClip s v f).clip h = s.clip h := rfl

theorem countClip_volume (s : State) (v w : Nat) (f : Nat → Nat) : (countClip s v f).volume w =
    if w = v then { s.volume w with clipCount := f (s.volume w).clipCount } else s.volume w := by
  unfold countClip
  rw [State.volume_setVolume]
  split
  · rename_i e; rw [e]
  · rfl

/-- What a clip, a volume, a view reads as after an event goes by the state its act leaves. -/
theorem Ends.clip {s t : State} (e : Ends s t) (h : Nat) : t.clip h = s.clip h := by unfold State.clip; rw [e.map]

theorem Ends.volume {s t : State} (e : Ends s t) (v : Nat) : t.volume v = s.volume v := by
  unfold State.volume; rw [e.volumes]

/-- Settles O23: the checks of R8 pass, `freeHandle` finds the handle, and the event changes no clip and no volume after. -/
theorem clipMakeTakesLowestHandle : Obligations.ClipMakeTakesLowestHandle := by
  intro s tag a h hoff hv hd hr h1 h2 hf low
  have act := doClipMake_ok (s := beginTake s) (ticketOf s 16 tag) hv hd hr (freeHandle_eq_some h1 h2 hf low)
  refine ⟨_, exec_offered hoff, ?_⟩
  show Answered s (endEvent _ (doClipMake a (ticketOf s 16 tag) (beginTake s))) _ _ _ _ _ ∧ _
  rw [show ownerAct (.clipMake a) (ticketOf s (Request.clipMake a).kind tag) (beginTake s) = _ from act, act]
  generalize takeBase s (.clipMake a) = s0
  have e := endEvent_ends s0
    ((countClip ((beginTake s).setClip h (newClip a)) a.volume (· + 1)).reply (ticketOf s 16 tag) .ok [item2 h])
  have clip : ∀ k, State.clip _ k = if k = h then newClip a else s.clip k := fun k =>
    (e.clip k).trans (State.clip_setClip (beginTake s) h k (newClip a))
  refine ⟨answered_reply _ List.prefix_rfl, Frame.taken ?_ e, by rw [clip, if_pos rfl]; rfl,
    fun k hk => by rw [clip, if_neg hk], ?_, ?_, ?_, ?_, fun v => ?_⟩
  · exact ((setClip_frame _ h _ rfl).trans (countClip_frame _ _ _ rfl)).trans ((Follows.reply _ _ _ _).frame _)
  · rw [e.map]; rfl
  · rw [e.map]; rfl
  · rw [e.map]; rfl
  · rw [e.map]; rfl
  · exact (e.volume v).trans (countClip_volume _ _ v _)

end Sys2Proof.Machine

/-! SUPPORT. A state at rest: when each consequence has nothing to do, and by which parts of the state that goes. -/

namespace Sys2Proof.Machine

/-- A state at rest is left as it is. -/
theorem settle_of_atRest {s : State} (h : AtRest s) : settle s = s := by
  show settleFor (1048575 + 1) s = s
  simp only [settleFor, h.1, h.2]

theorem orStep_eq_none {a b : State → Option State} {s : State} : orStep a b s = none ↔ a s = none ∧ b s = none := by
  unfold orStep
  cases h : a s <;> simp

theorem firstSome_eq_none {α β : Type} {f : α → Option β} {l : List α} : firstSome f l = none ↔ ∀ a ∈ l, f a = none := by
  induction l with
  | nil => simp [firstSome]
  | cons a l ih =>
    simp only [firstSome, List.mem_cons, forall_eq_or_imp]
    cases h : f a <;> simp [ih]

theorem settleStep_eq_none {s : State} : settleStep s = none ↔ handStep s = none ∧ judgeOverload s = none ∧ grantHead s = none ∧
    resolveStep s = none ∧ extendStep s = none ∧ cueStep s = none ∧ deliverStep s = none ∧ issueStep s = none := by
  unfold settleStep
  simp only [orStep_eq_none]

/-! ## When a consequence has nothing to do -/

/-- No piece is handed: goes by the context alone (R126). -/
theorem handOne_eq_none {s : State} {id : Nat} : handOne s id = none ↔ ∀ c, s.context id = some c →
    (oldestIn c).isSome = true ∨ ∀ i, c.pieces.findIdx? (fun q => q.status == .unhanded) = some i → ∀ q, c.pieces[i]? = some q →
      c.reserve < pieceNeed q.piece q.rebuilt := by
  unfold handOne
  cases s.context id with
  | none => simp
  | some c =>
    simp only [Option.some.injEq, forall_eq']
    by_cases ho : (oldestIn c).isSome = true
    · simp [ho]
    · simp only [ho, if_false, false_or, Bool.false_eq_true]
      cases c.pieces.findIdx? (fun q => q.status == .unhanded) with
      | none => simp
      | some i =>
        simp only [Option.some.injEq, forall_eq']
        cases c.pieces[i]? with
        | none => simp
        | some q =>
          simp only [Option.some.injEq, forall_eq']
          by_cases hr : c.reserve < pieceNeed q.piece q.rebuilt
          · simp [hr]
          · simp only [hr, if_false, iff_false]
            repeat' split
            all_goals simp

theorem spillReserve_eq_none {s : State} {id : Nat} : spillReserve s id = none ↔ ∀ c, s.context id = some c →
    c.reserve = 0 ∨ (oldestIn c).isSome = true ∨ c.pieces.any (fun q => q.status == .unhanded) = true := by
  unfold spillReserve
  cases s.context id with
  | none => simp
  | some c =>
    simp only [Option.some.injEq, forall_eq']
    split <;> simp_all

theorem handStep_eq_none {s : State} :
    handStep s = none ↔ ∀ c ∈ s.sched.contexts, handOne s c.1 = none ∧ spillReserve s c.1 = none := by
  unfold handStep
  rw [firstSome_eq_none]
  refine forall₂_congr fun c _ => ?_
  cases handOne s c.1 <;> simp

theorem judgeOverload_eq_none {s : State} : judgeOverload s = none ↔
    if s.store.overload = true then availablePages s < Config.overloadLeave else Config.overloadEnter ≤ availablePages s := by
  unfold judgeOverload
  dsimp only
  split <;> simp

/-- No entry of the wait list is granted or failed (R111). -/
theorem grantHead_eq_none {s : State} : grantHead s = none ↔ ∀ id e, waitHead s = some (id, e) →
    (s.store.overload && e.cls == .pin) = true ∨ availablePages s < e.pageNeed ∨
      s.sched.freeRecords < min e.recordNeed Config.maxAllotment := by
  unfold grantHead
  cases waitHead s with
  | none => simp
  | some x =>
    obtain ⟨id, e⟩ := x
    simp only [Option.some.injEq, Prod.mk.injEq, and_imp, forall_apply_eq_imp_iff, forall_eq']
    by_cases h1 : (s.store.overload && e.cls == .pin) = true
    · simp [h1]
    · by_cases h2 : availablePages s < e.pageNeed ∨ s.sched.freeRecords < min e.recordNeed Config.maxAllotment
      · simp only [h1, h2, if_true, if_false, Bool.false_eq_true, or_true]
      · simp only [h1, h2, if_false, Bool.false_eq_true, or_self, iff_false]
        repeat' (first | split | dsimp only)
        all_goals simp

theorem resolveStep_eq_none {s : State} :
    resolveStep s = none ↔ ∀ c ∈ s.chans, c.2.list.findIdx? ListEntry.unresolved = none := by
  unfold resolveStep
  rw [firstSome_eq_none]
  simp only [Option.map_eq_none_iff]

/-- A channel's list is not extended (R83). -/
theorem extendOne_eq_none {s : State} {c : Nat} {ch : Channel} : extendOne s c ch = none ↔
    (ch.state.extends && !ch.listStands && decide (ch.depth < depthTarget s ch) &&
      decide (ch.list.length < Config.maxList)) = true → afterList s ch = none := by
  unfold extendOne
  split <;> simp_all

theorem extendStep_eq_none {s : State} : extendStep s = none ↔ ∀ c ∈ s.chans, extendOne s c.1 (s.chan c.1) = none :=
  firstSome_eq_none

theorem cueOne_eq_none {s : State} {c : Nat} {ch : Channel} : cueOne s c ch = none ↔
    ¬(ch.state = .cueing ∧ extendOne s c ch = none ∧ cueLeft s ch = cueCount s ch) := by
  unfold cueOne
  split <;> simp_all

theorem cueStep_eq_none {s : State} : cueStep s = none ↔ ∀ c ∈ s.chans, cueOne s c.1 (s.chan c.1) = none :=
  firstSome_eq_none

theorem beginIfReady_eq_none {s : State} {c : Nat} {e : ListEntry} {p : Cursor} : beginIfReady s c e p = none ↔
    ((s.ring c).transfer.isNone ∧ e.status = .ready → e.ref.bind s.entry = none) := by
  unfold beginIfReady
  split
  · rename_i h
    simp only [Option.map_eq_none_iff, h, true_and, forall_const]
    cases e.ref <;> simp
  · simp_all

/-- A RUNNING channel's next unwritten period gets no record: it lies beyond its ring, or behind a transfer, or has no entry or
no position, or its entry has nothing to deliver (R97). -/
theorem deliverPeriod_eq_none {s : State} {c : Nat} : deliverPeriod s c = none ↔
    let ch := s.chan c
    let n := ch.firstUnwritten
    (periodsAfter n ch.dueIndex ≥ (s.ring c).slotCount ∨ (s.ring c).bars n = true) ∨
      ∀ e, ch.entryAt n = some e → ∀ p, cursorOf s ch n = some p →
        if ch.callsRepeat e n = true then e.status.lost = true else
          ((s.ring c).transfer.isNone ∧ e.status = .ready → e.ref.bind s.entry = none) := by
  unfold deliverPeriod
  dsimp only
  by_cases h : periodsAfter (s.chan c).firstUnwritten (s.chan c).dueIndex ≥ (s.ring c).slotCount ∨
      (s.ring c).bars (s.chan c).firstUnwritten = true
  · simp only [h, if_true, true_or]
  · simp only [h, if_false, false_or]
    cases (s.chan c).entryAt (s.chan c).firstUnwritten with
    | none => simp
    | some e =>
      simp only [Option.some.injEq, forall_eq']
      cases cursorOf s (s.chan c) (s.chan c).firstUnwritten with
      | none => simp
      | some p =>
        simp only [Option.some.injEq, forall_eq']
        by_cases hr : (s.chan c).callsRepeat e (s.chan c).firstUnwritten = true
        · simp only [hr, if_true]; cases e.status.lost <;> simp
        · simp only [hr, if_false, Bool.false_eq_true]; exact beginIfReady_eq_none

theorem deliverOne_eq_none {s : State} {c : Nat} : deliverOne s c = none ↔ ((s.ring c).closing = true ∨ (s.ring c).free = 0) ∨
    ((s.ring c).revoke = none ∧ ((s.chan c).state = .running → deliverPeriod s c = none)) := by
  unfold deliverOne
  dsimp only
  by_cases h : (s.ring c).closing = true ∨ (s.ring c).free = 0
  · simp only [h, if_true, true_or]
  · simp only [h, if_false, false_or]
    cases (s.ring c).revoke with
    | some v => simp
    | none =>
      by_cases hr : (s.chan c).state = .running <;> simp [hr]

theorem deliverStep_eq_none {s : State} : deliverStep s = none ↔ ∀ c ∈ s.rings, deliverOne s c.1 = none :=
  firstSome_eq_none

/-- No read of a member is issued (R131). -/
theorem issueOne_eq_none {s : State} {m : Nat} : issueOne s m = none ↔
    ∀ r, queueHead s m = some r → ∀ t, (s.link m).freeTag = some t → online s m = false ∨ (r.cls == .pin && decide ((s.link m).countTags TagState.isBusyPin ≥ 2)) = true := by
  unfold issueOne
  cases queueHead s m with
  | none => simp
  | some r =>
    simp only [Option.some.injEq, forall_eq']
    cases (s.link m).freeTag with
    | none => simp
    | some t =>
      simp only [Option.some.injEq, forall_eq']
      cases online s m
      · simp
      · simp only [Bool.not_true, Bool.false_eq_true, if_false, ite_eq_left_iff, reduceCtorEq, imp_false, not_not, false_or]

theorem issueStep_eq_none {s : State} : issueStep s = none ↔ ∀ m ∈ List.range Config.members, issueOne s m = none :=
  firstSome_eq_none

end Sys2Proof.Machine

/-! SUPPORT. A request that only reports, taken from a quiet state: every block stands exactly (R174, R176). -/

namespace Sys2Proof.Machine

/-- What stands in the port and what has been handed over is no part of a state's rest. -/
theorem AtRest.ofPort {s : State} (h : AtRest s) (p : Port) (l : List Handed) : AtRest { s with port := p, handed := l } := by
  obtain ⟨hu, hs⟩ := h
  refine ⟨?_, ?_⟩
  · have hc : refreshUrgency { s with port := p, handed := l } = { refreshUrgency s with port := p, handed := l } := rfl
    rw [hc, hu]
  · simp only [settleStep_eq_none, handStep_eq_none, handOne_eq_none, spillReserve_eq_none, judgeOverload_eq_none, grantHead_eq_none, resolveStep_eq_none,
      extendStep_eq_none, extendOne_eq_none, cueStep_eq_none, cueOne_eq_none, deliverStep_eq_none, deliverOne_eq_none,
      deliverPeriod_eq_none, issueStep_eq_none, issueOne_eq_none] at hs ⊢
    exact hs

/-! ## The end of an event without a change of condition -/

theorem Mode.reports_self (m : Mode) (b : Bool) : m.reports b b = false := by cases m <;> cases b <;> rfl

theorem applyChanConditions_self (p : Port) (t : Tab Channel) : applyChanConditions p t t = t := by
  have bits : ∀ c, conditionBits (p.notices c) (tget Channel.initial t c) (tget Channel.initial t c) = 0 := fun c => by
    simp [conditionBits, Mode.reports_self, flagIf]
  unfold applyChanConditions
  simp only [bits, if_true]
  exact List.foldl_fixed' (fun _ => rfl) _

/-- Where no condition has changed, none sets a flag (R179). -/
theorem applyConditions_of_same {s0 s : State} (hc : s.chans = s0.chans) (ho : s.store.overload = s0.store.overload)
    (hr : s.time.refLost = s0.time.refLost) : applyConditions s0 s = s := by
  have hb : partConditionBits s0 s = 0 := by simp [partConditionBits, ho, hr, Mode.reports_self, flagIf]
  have hf : s.port.flags ||| partConditionBits s0 s = s.port.flags := by rw [hb]; exact BitVec.or_zero
  unfold applyConditions
  rw [hf, hc, applyChanConditions_self, ← hc]

theorem writePortRecord_eq (s0 s : State) : ∃ o, writePortRecord s0 s = { s with out := s.out ++ o } := by
  unfold writePortRecord
  split
  · exact ⟨[_], rfl⟩
  · exact ⟨[], by simp⟩

/-- The notice line is left as the flags and enables call for (R180). -/
theorem judgeLine_eq (s : State) : ∃ o, judgeLine s = { s with
    port := { s.port with lineActive := lineWanted s.port s.chans }, out := s.out ++ o } := by
  unfold judgeLine
  dsimp only
  split
  · rename_i h; exact ⟨[], by rw [h]; simp⟩
  · exact ⟨[_], rfl⟩

theorem writeAnswers_singleton {s : State} {h : Handed} (hh : s.handed = [h]) :
    writeAnswers s = { writeAnswer s h with handed := [] } := by
  unfold writeAnswers
  rw [hh]
  rfl

/-- A request that is answered at once with nothing else done leaves a quiet state as it stands (R174, R176). -/
theorem onlyAnswered_reply {s : State} {r : Request} {tag : Nat} (hoff : Offered s tag r) (q : Quiet s) (t : Ticket)
    (res : Result) (items : List Item) : OnlyAnswered s (endEvent s ((beginTake s).reply t res items)) := by
  obtain ⟨rest, hh, -⟩ := q
  have enabled : s.port.state = .enabled := by
    have := hoff.2
    simp only [canTake, Bool.and_eq_true, beq_iff_eq] at this
    exact this.1.1.1
  generalize hs1 : (beginTake s).reply t res items = s1
  have rest1 : AtRest s1 := by rw [← hs1]; exact rest.ofPort _ _
  have handed1 : s1.handed = [⟨t, res, false, 0, items⟩] := by rw [← hs1]; simp [State.reply, State.replyDetail, beginTake, hh]
  unfold endEvent finish
  rw [settle_of_atRest rest1, applyConditions_of_same (by rw [← hs1]; rfl) (by rw [← hs1]; rfl) (by rw [← hs1]; rfl),
    writeAnswers_singleton handed1]
  obtain ⟨o1, h1⟩ := writePortRecord_eq s { writeAnswer s1 ⟨t, res, false, 0, items⟩ with handed := [] }
  rw [h1]
  generalize hz : ({ ({ writeAnswer s1 ⟨t, res, false, 0, items⟩ with handed := [] } : State) with out := _ } : State) = z
  obtain ⟨o2, h2⟩ := judgeLine_eq z
  rw [h2]
  generalize hy : ({ z with port := { z.port with lineActive := lineWanted z.port z.chans }, out := z.out ++ o2 } : State) = y
  obtain ⟨hd, o3, h3⟩ : ∃ hd o3, startRead y = { y with port := { y.port with hand := hd }, out := o3 } := by
    rcases startRead_eq y with h | ⟨-, h⟩
    · exact ⟨y.port.hand, y.out, h⟩
    · exact ⟨_, _, h⟩
  rw [h3]
  subst hy hz hs1
  have reserved : s.port.reserved + 1 - 1 = s.port.reserved := rfl
  refine ⟨rfl, rfl, rfl, rfl, rfl, rfl, rfl, rfl, rfl, ⟨rfl, rfl, rfl, rfl, rfl, rfl, rfl, rfl, rfl, rfl⟩, ?_, rfl, rfl, reserved, rfl, rfl⟩
  exact if_neg fun h => by rw [show s.port.state = .stopping from h.1] at enabled; cases enabled

end Sys2Proof.Machine

/-! SUPPORT. The requests that only report (R23, R24, R69, R123, R168). -/

namespace Sys2Proof.Machine

/-- A request whose owner answers at once and does nothing else: its frame, its rest, its answer. -/
theorem exec_reports {s : State} {tag : Nat} {r : Request} {res : Result} {items : List Item} (hoff : Offered s tag r)
    (hr : r ≠ .serviceClear) (act : ownerAct r (ticketOf s r.kind tag) (beginTake s) =
      (beginTake s).reply (ticketOf s r.kind tag) res items) :
    ∃ t, exec (rowOf tag r) s = .next t ∧ Frame {} s t ∧ (Quiet s → OnlyAnswered s t) ∧
      Answered s t r.kind tag res 0 items := by
  have hx := exec_offered hoff
  rw [act, show takeBase s r = s from if_neg hr] at hx
  exact ⟨_, hx, Frame.taken ((Follows.reply _ _ _ _).frame {}) (endEvent_ends _ _), fun q => onlyAnswered_reply hoff q _ _ _,
    answered_reply _ List.prefix_rfl⟩

theorem badClip_eq_false {s : State} {h : Nat} :
    badClip s h = false ↔ 1 ≤ h ∧ h ≤ 4095 ∧ (s.clip h).state ≠ .free := by
  simp only [badClip, Bool.or_eq_false_iff, beq_eq_false_iff_ne, decide_eq_false_iff_not, ne_eq, gt_iff_lt, not_lt, and_assoc,
    Nat.one_le_iff_ne_zero, Config.maxClip]

/-! ## CLIP_ASK -/

/-- Settles O31: CLIP_ASK answers BAD_HANDLE for a bad handle, else the clip's record, and does nothing else. -/
theorem clipAskReportsTheRecord : Obligations.ClipAskReportsTheRecord := by
  intro s tag h hoff
  cases hb : badClip s h with
  | true =>
    obtain ⟨t, hx, hf, hq, ha⟩ := exec_reports hoff (by simp) (if_pos hb)
    have bad : ¬(1 ≤ h ∧ h ≤ 4095 ∧ (s.clip h).state ≠ .free) := by
      rw [← badClip_eq_false, hb]; decide
    exact ⟨t, hx, hf, hq, fun good => absurd good bad, fun _ => ha⟩
  | false =>
    obtain ⟨t, hx, hf, hq, ha⟩ := exec_reports hoff (by simp) (if_neg (by rw [show badClip (beginTake s) h = false from hb]; decide))
    exact ⟨t, hx, hf, hq, fun _ => ha, fun bad => absurd (badClip_eq_false.1 hb) bad⟩

/-! ## FRAME_ASK -/

theorem lookup_outside {s : State} {h f : Nat} (hf : (s.clip h).length ≤ f) : lookup s h f = .outside := if_pos hf

theorem lookup_inside {s : State} {h f : Nat} (hf : f < (s.clip h).length) :
    lookup s h f = ((s.clip h).slot (f / 64)).frame (f % 64) := if_neg (by omega)

/-- A frame of a slot is absent unless a UNIFORM slot counts it or a LISTED one lists it (R4). -/
theorem GroupSlot.frame_eq_absent {g : GroupSlot} {i : Nat} (hu : ∀ n b z p, g = .uniform n b z p → p ≤ i)
    (hl : ∀ n table, g = .listed n table → ∀ l, table[i]? ≠ some (some l)) : g.frame i = .absent := by
  cases g with
  | empty => rfl
  | uniform n b z p => exact if_neg (by have := hu n b z p rfl; omega)
  | listed n table =>
    simp only [GroupSlot.frame]
    split
    · rename_i l h; exact absurd h (hl n table rfl l)
    · rfl

/-- A frame of a slot is present where a UNIFORM slot counts it or a LISTED one lists it, under the slot's serial (R4). -/
theorem GroupSlot.frame_eq_present {g : GroupSlot} {n i address size : Nat}
    (h : (∃ b p, g = .uniform n b size p ∧ i < p ∧ address = b + i * size) ∨
      ∃ table, g = .listed n table ∧ table[i]? = some (some ⟨address, size⟩)) :
    g.frame i = .present n i address size ∧ g.serial = n := by
  rcases h with ⟨b, p, rfl, hi, rfl⟩ | ⟨table, rfl, ht⟩
  · exact ⟨if_pos hi, rfl⟩
  · refine ⟨?_, rfl⟩
    simp only [GroupSlot.frame, ht]

/-- The items of FRAME_ASK where the lookup gives an outcome that is not PRESENT (R24). -/
theorem frameItems_without {s : State} {a : FrameAskArgs} {o : LookupOutcome} (ho : lookup s a.clip a.frame = o)
    (hp : ∀ n i x z, o ≠ .present n i x z) : frameItems s a =
      [item1 o.code, item1 (askedSlot s a.clip a.frame).code, itemFlag false, item1 0, item1 0, item1 0, item2 0,
        item4 (askedSlot s a.clip a.frame).serial, item4 0, item8 0] := by
  unfold frameItems
  rw [ho]
  cases o with
  | present n i x z => exact absurd rfl (hp n i x z)
  | outside => rfl
  | absent => rfl

/-- Settles the first part of O32, for FRAME_ASK. -/
theorem frameAsk_reports (s : State) (tag i : Nat) (a : FrameAskArgs) (g : GroupSlot) (hoff : Offered s tag (.frameAsk a))
    (h1 : 1 ≤ a.clip) (h2 : a.clip ≤ 4095) (hs : (s.clip a.clip).state ≠ .free) (hv : viewDefined s a.view = true)
    (hi : i = a.frame % 64) (hg : g = (if a.frame < 1048576 then (s.clip a.clip).slot (a.frame / 64) else .empty)) :
    ∃ t, exec (.frameAsk tag a) s = .next t ∧ Frame {} s t ∧ (Quiet s → OnlyAnswered s t) ∧
      ((s.clip a.clip).length ≤ a.frame →
        Answered s t 23 tag .ok 0 [item1 0, item1 g.code, itemFlag false, item1 0, item1 0, item1 0, item2 0, item4 g.serial,
          item4 0, item8 0]) ∧
      (a.frame < (s.clip a.clip).length → a.frame < 1048576 → (∀ n b z p, g = .uniform n b z p → p ≤ i) →
        (∀ n table, g = .listed n table → ∀ l, table[i]? ≠ some (some l)) →
        Answered s t 23 tag .ok 0 [item1 1, item1 g.code, itemFlag false, item1 0, item1 0, item1 0, item2 0, item4 g.serial,
          item4 0, item8 0]) ∧
      ∀ n address size, a.frame < (s.clip a.clip).length → a.frame < 1048576 →
        (∃ b p, g = .uniform n b size p ∧ i < p ∧ address = b + i * size) ∨
          (∃ table, g = .listed n table ∧ table[i]? = some (some ⟨address, size⟩)) →
        ((findEntry s ⟨n, i, a.view⟩).bind s.entry = none →
          Answered s t 23 tag .ok 0 [item1 2, item1 g.code, itemFlag false, item1 0, item1 0, item1 0, item2 0, item4 n,
            item4 size, item8 address]) ∧
        ∀ id e, findEntry s ⟨n, i, a.view⟩ = some id → s.entry id = some e →
          Answered s t 23 tag .ok 0 [item1 2, item1 g.code, itemFlag true, item1 e.state.code, item1 e.state.reasonCode,
            item1 e.pins, item2 e.refs, item4 n, item4 size, item8 address] := by
  have hb : badClip s a.clip = false := badClip_eq_false.2 ⟨h1, h2, hs⟩
  obtain ⟨t, hx, hf, hq, ha⟩ := exec_reports (items := frameItems s a) (res := .ok) hoff (by simp)
    (if_neg (by
      rw [show badClip (beginTake s) a.clip = false from hb, show viewDefined (beginTake s) a.view = true from hv]; decide))
  have slot : askedSlot s a.clip a.frame = g := hg.symm
  have frame : a.frame < (s.clip a.clip).length → a.frame < 1048576 → lookup s a.clip a.frame = g.frame i := fun hl hm => by
    rw [lookup_inside hl, hg, hi, if_pos hm]
  refine ⟨t, hx, hf, hq, fun hl => ?_, fun hl hm hu ht => ?_, fun n address size hl hm hp => ?_⟩
  · rw [frameItems_without (lookup_outside hl) (by simp), slot] at ha
    exact ha
  · rw [frameItems_without ((frame hl hm).trans (GroupSlot.frame_eq_absent hu ht)) (by simp), slot] at ha
    exact ha
  · obtain ⟨present, serial⟩ := GroupSlot.frame_eq_present hp
    simp only [frameItems, askedEntry, frame hl hm, present, slot, serial] at ha
    refine ⟨fun hn => ?_, fun id e hfe he => ?_⟩
    · simp only [hn] at ha
      exact ha
    · simp only [hfe, Option.bind_some, he] at ha
      exact ha

/-! ## CHAN_ASK -/

/-- Settles the second part of O32, for CHAN_ASK. -/
theorem chanAsk_reports (s : State) (tag : Nat) (a : PageAskArgs) (ch : Channel) (r : Ring) (hoff : Offered s tag (.chanAsk a))
    (hn : a.number < 64) (hch : ch = s.chan a.number) (hr : r = s.ring a.number) (hs : ch.state ≠ .free) :
    ∃ t, exec (.chanAsk tag a) s = .next t ∧ Frame {} s t ∧ (Quiet s → OnlyAnswered s t) ∧
      (a.page = 0 → Answered s t 58 tag .ok 0
        [item1 ch.state.code, item1 (ch.view.getD 255), itemFlag ch.loop, itemFlag ch.follow,
          item1 (if ch.phase = .prime then 1 else 0), item1 (ch.list.countP (fun e => (ch.unwrittenIn e).isSome)),
          item1 ch.flags.toNat, itemFlag ch.course.isSome, item2 ch.clip, item2s ch.speed, item2 ch.remaining,
          item1 (r.produce - r.returned).toNat, item1 (r.slotCount - (r.produce - r.returned).toNat - r.taken),
          item4 ch.inPoint, item4 ch.lastFrame]) ∧
      (a.page = 1 → Answered s t 58 tag .ok 0
        [itemFlag ch.start.isSome, itemFlag ch.lastRecord.isSome, item4s ch.pos, item4 ch.period, item4 ch.dueIndex.toNat,
          item4 (ch.lastRecord.elim 0 BitVec.toNat), item4 (ch.course.elim 0 (fun q => q.change.toNat))]) ∧
      (2 ≤ a.page → Answered s t 58 tag .ok 0 [itemFlag ch.dueTime.isSome, item8 (ch.dueTime.getD 0)]) := by
  subst hch hr
  have hb : badChannel s a.number = false := by
    simp only [badChannel, Bool.or_eq_false_iff, decide_eq_false_iff_not, beq_eq_false_iff_ne, ge_iff_le, not_le]
    exact ⟨hn, hs⟩
  obtain ⟨t, hx, hf, hq, ha⟩ := exec_reports (res := .ok) (items := chanItems (s.chan a.number) (s.ring a.number) a.page) hoff
    (by simp) (if_neg (by rw [show badChannel (beginTake s) a.number = false from hb]; decide))
  refine ⟨t, hx, hf, hq, fun h => ?_, fun h => ?_, fun h => ?_⟩
  · have phase : (s.chan a.number).phase.code = if (s.chan a.number).phase = .prime then 1 else 0 := by
      cases (s.chan a.number).phase <;> rfl
    rw [h] at ha
    unfold chanItems chanPage0 Channel.depth at ha
    rw [phase, ← List.countP_eq_length_filter] at ha
    exact ha
  · rw [h] at ha
    unfold chanItems chanPage1 at ha
    cases hl : (s.chan a.number).lastRecord <;> cases hc : (s.chan a.number).course <;> rw [hl, hc] at ha <;> exact ha
  · obtain ⟨p, hp⟩ := Nat.exists_eq_add_of_le h
    rw [hp, Nat.add_comm] at ha
    exact ha

/-! ## STORE_ASK -/

theorem sumOf_eq_sum {α : Type} (f : α → Nat) (l : List α) : sumOf f l = (l.map f).sum := by
  have key : ∀ (l : List α) (n : Nat), l.foldl (fun n a => n + f a) n = n + (l.map f).sum := by
    intro l
    induction l with
    | nil => simp
    | cons a l ih => intro n; rw [List.foldl_cons, ih, List.map_cons, List.sum_cons, Nat.add_assoc]
  simpa [sumOf] using key l 0

/-- The number of entries that pass a test, counted over the records. -/
theorem countEntries_eq (s : State) (f : Entry → Bool) : countEntries s f = s.store.entries.countP (fun x => x.2.any f) := by
  unfold countEntries entriesWhere
  induction s.store.entries with
  | nil => rfl
  | cons x l ih =>
    obtain ⟨k, o⟩ := x
    cases o with
    | none => simpa using ih
    | some e => cases h : f e <;> simp [h, ih]

/-- A sum over the entries that pass a test, taken over the records. -/
theorem sumOf_entriesWhere (s : State) (f : Entry → Bool) (v : Entry → Nat) : sumOf (fun x => v x.2) (entriesWhere s f) =
    (s.store.entries.map (fun x => x.2.elim 0 (fun e => if f e then v e else 0))).sum := by
  rw [sumOf_eq_sum]
  unfold entriesWhere
  induction s.store.entries with
  | nil => rfl
  | cons x l ih =>
    obtain ⟨k, o⟩ := x
    cases o with
    | none => simpa using ih
    | some e => cases h : f e <;> simp [h, ih]

theorem Entry.reclaimable_eq (e : Entry) : e.reclaimable =
    (e.refs == 0 && e.pins == 0 && e.transfers == 0 && e.state != .filling && e.state != .abandoned) := by
  unfold Entry.reclaimable Entry.unused
  cases e.state <;> simp [bne, BEq.beq]

theorem EntryState.isFailed_eq (x : EntryState) : x.isFailed = (x != .filling && x != .ready && x != .abandoned) := by
  cases x <;> rfl

/-- Settles the third part of O32, for STORE_ASK. -/
theorem storeAsk_reports (s : State) (tag : Nat) (a : PageAskArgs) (count pages : (Entry → Bool) → Nat)
    (hoff : Offered s tag (.storeAsk a)) (hn : a.number = 255 ∨ (a.number < 32 ∧ (s.pin a.number).state ≠ .free))
    (hc : ∀ p, count p = s.store.entries.countP (fun x => x.2.any p))
    (hp : ∀ p, pages p = (s.store.entries.map (fun x => x.2.elim 0 (fun e => if p e then e.pages.length else 0))).sum) :
    ∃ t, exec (.storeAsk tag a) s = .next t ∧ Frame {} s t ∧ (Quiet s → OnlyAnswered s t) ∧
      (a.page = 0 → Answered s t 82 tag .ok 0
        [item4 s.store.freePages,
          item4 (pages (fun e => e.refs == 0 && e.pins == 0 && e.transfers == 0 && e.state != .filling &&
            e.state != .abandoned)),
          item4 (count (fun _ => true)), item4 (count (fun e => e.state == .filling && !e.granted)),
          item4 (count (fun e => e.state == .filling && e.granted)), item4 (count (fun e => e.state == .ready))]) ∧
      (a.page = 1 → ∃ total,
        total = (s.store.entries.map (fun x => x.2.elim 0 (fun e => if 0 < e.pins then e.pageNeed else 0))).sum ∧
        Answered s t 82 tag .ok 0
          [item4 (count (fun e => e.state != .filling && e.state != .ready && e.state != .abandoned)),
            item4 (count (fun e => e.state == .abandoned)), item4 (count (fun e => e.orphan)), item4 total,
            item2 (count (fun e => 0 < e.pins)), itemFlag s.store.overload]) ∧
      (2 ≤ a.page → a.number = 255 →
        Answered s t 82 tag .ok 0 [item1 0, item1 0, item2 0, item2 0, item2 0, item4 0, item2 0]) ∧
      (2 ≤ a.page → a.number ≠ 255 → Answered s t 82 tag .ok 0
        [item1 (s.pin a.number).state.code, item1 (s.pin a.number).view, item2 (s.pin a.number).clip,
          item2 (s.pin a.number).count, item2 (s.pin a.number).held, item4 (s.pin a.number).first,
          item2 ((s.pin a.number).covered.countP (fun x => (s.entry x.2).any (fun e => e.state == .ready)))]) := by
  have named : ¬(a.number ≠ 255 ∧ badPin s a.number = true) := by
    rintro ⟨h1, h2⟩
    obtain ⟨h3, h4⟩ := hn.resolve_left h1
    simp only [badPin, Bool.or_eq_true, decide_eq_true_eq, beq_iff_eq] at h2
    exact h2.elim (fun h => absurd h (Nat.not_le.2 h3)) h4
  obtain ⟨t, hx, hf, hq, ha⟩ := exec_reports (res := .ok) (items := storeItems s a.number a.page) hoff (by simp) (if_neg named)
  have count' : ∀ f, countEntries s f = count f := fun f => (countEntries_eq s f).trans (hc f).symm
  refine ⟨t, hx, hf, hq, fun h => ?_, fun h => ⟨pinnedPages s, ?_, ?_⟩, fun h hz => ?_, fun h hz => ?_⟩
  · have reclaim : reclaimPages s = pages (fun e => e.refs == 0 && e.pins == 0 && e.transfers == 0 && e.state != .filling &&
        e.state != .abandoned) := by
      have sum := sumOf_entriesWhere s Entry.reclaimable (fun e => e.pages.length)
      rw [← funext Entry.reclaimable_eq, hp]
      exact sum
    rw [h] at ha
    unfold storeItems storePage0 at ha
    simp only [count', reclaim] at ha
    exact ha
  · exact (sumOf_entriesWhere s _ _).trans (by simp)
  · have entries : pinnedEntries s = count (fun e => 0 < e.pins) := count' _
    rw [h] at ha
    unfold storeItems storePage1 at ha
    simp only [count', entries, EntryState.isFailed_eq] at ha
    exact ha
  · obtain ⟨p, hpg⟩ := Nat.exists_eq_add_of_le h
    rw [hpg, Nat.add_comm, hz] at ha
    exact ha
  · obtain ⟨p, hpg⟩ := Nat.exists_eq_add_of_le h
    have ready : coveredReady s (s.pin a.number) =
        (s.pin a.number).covered.countP (fun x => (s.entry x.2).any (fun e => e.state == .ready)) := by
      unfold coveredReady
      rw [← List.countP_eq_length_filter]
      refine List.countP_congr fun x _ => ?_
      cases s.entry x.2 <;> simp
    rw [hpg, Nat.add_comm] at ha
    unfold storeItems storePage2 at ha
    simp only [if_neg hz, ready] at ha
    exact ha

/-- Settles O32: each of the four asks answers the items written out and does nothing else. -/
theorem asksReportAndChangeNothing : Obligations.AsksReportAndChangeNothing := by
  refine ⟨frameAsk_reports, chanAsk_reports, storeAsk_reports, fun s tag hoff => ?_⟩
  exact exec_reports (res := .ok) (items := timeItems s) hoff (by simp) rfl

end Sys2Proof.Machine

/-! SUPPORT. Canonical tables read as maps: a listed record is the record read, and two tables that read alike are one.
The entry records an act keeps: `EntriesFollow`. -/

namespace Sys2Proof.Machine

section
variable {α : Type} {d : α}

/-- In a table of rising numbers a listed record is the one read. -/
theorem tget_of_mem {t : Tab α} {k : Nat} {v : α} (hs : tsorted t = true) (h : (k, v) ∈ t) : tget d t k = v := by
  induction t with
  | nil => cases h
  | cons c t ih =>
    obtain ⟨a, w⟩ := c
    obtain ⟨above, ht⟩ := tsorted_cons.1 hs
    rcases List.mem_cons.1 h with h | h
    · cases h; simp [tget]
    · rw [tget, if_neg (Nat.ne_of_lt (above _ h)), ih ht h]

/-- A record that does not read as the default is listed. -/
theorem mem_of_tget_ne {t : Tab α} {k : Nat} (h : tget d t k ≠ d) : (k, tget d t k) ∈ t := by
  induction t with
  | nil => exact absurd rfl h
  | cons c t ih =>
    obtain ⟨a, w⟩ := c
    simp only [tget] at h ⊢
    split
    · rename_i e; subst e; exact List.mem_cons_self ..
    · rename_i e; rw [if_neg e] at h; exact List.mem_cons_of_mem _ (ih h)

theorem twf_iff [DecidableEq α] {t : Tab α} : twf d t = true ↔ tsorted t = true ∧ ∀ c ∈ t, c.2 ≠ d := by
  simp [twf, List.all_eq_true]

/-- A number no record is listed under reads as the default. -/
theorem tget_of_unlisted {t : Tab α} {k : Nat} (h : ∀ c ∈ t, c.1 ≠ k) : tget d t k = d := by
  by_contra hne
  exact h _ (mem_of_tget_ne hne) rfl

theorem tsorted_tmap (f : Nat → α → α) (t : Tab α) : tsorted (tmap f t) = tsorted t := by
  induction t with
  | nil => rfl
  | cons c t ih =>
    rw [Bool.eq_iff_iff, show tmap f (c :: t) = (c.1, f c.1 c.2) :: tmap f t from rfl, tsorted_cons, tsorted_cons, ih]
    refine and_congr_left' ⟨fun h e he => h (e.1, f e.1 e.2) (List.mem_map_of_mem he), fun h e he => ?_⟩
    obtain ⟨x, hx, rfl⟩ := List.mem_map.1 he
    exact h x hx

/-- A change of every record that makes none the default keeps the canonical form. -/
theorem twf_tmap [DecidableEq α] {f : Nat → α → α} {t : Tab α} (hf : ∀ k v, v ≠ d → f k v ≠ d) (h : twf d t = true) :
    twf d (tmap f t) = true := by
  rw [twf_iff] at h ⊢
  refine ⟨(tsorted_tmap f t).trans h.1, fun c hc => ?_⟩
  obtain ⟨x, hx, rfl⟩ := List.mem_map.1 hc
  exact hf _ _ (h.2 x hx)

theorem le_firstGap (k : Nat) (t : Tab α) : k ≤ firstGap k t := by
  induction t generalizing k with
  | nil => exact Nat.le_refl k
  | cons c t ih =>
    simp only [firstGap]
    split
    · exact ih k
    · split
      · exact Nat.le_of_succ_le (ih (k + 1))
      · exact Nat.le_refl k

/-- The lowest gap of a table of rising numbers is not listed. -/
theorem firstGap_unlisted {k : Nat} {t : Tab α} (hs : tsorted t = true) : ∀ c ∈ t, c.1 ≠ firstGap k t := by
  induction t generalizing k with
  | nil => simp
  | cons c t ih =>
    obtain ⟨above, ht⟩ := tsorted_cons.1 hs
    intro x hx
    simp only [firstGap]
    split
    · rename_i hlt
      rcases List.mem_cons.1 hx with rfl | hx
      · exact Nat.ne_of_lt (Nat.lt_of_lt_of_le hlt (le_firstGap k t))
      · exact ih ht x hx
    · split
      · rename_i heq
        rcases List.mem_cons.1 hx with rfl | hx
        · rw [heq]; exact Nat.ne_of_lt (Nat.lt_of_lt_of_le (Nat.lt_succ_self k) (le_firstGap (k + 1) t))
        · exact ih ht x hx
      · rename_i hge hne
        rcases List.mem_cons.1 hx with rfl | hx
        · exact hne
        · have := above x hx; omega

theorem bestBy_mem {lt : α → α → Bool} {l : List α} {b : α} (h : bestBy lt l = some b) : b ∈ l := by
  induction l generalizing b with
  | nil => cases h
  | cons a l ih =>
    simp only [bestBy] at h
    split at h
    · cases h; exact List.mem_cons_self ..
    · rename_i x hx
      split at h <;> cases h
      · exact List.mem_cons_of_mem _ (ih hx)
      · exact List.mem_cons_self ..

end

/-! ## Entry records -/

/-- The entries in use that pass a test are the records read as such. -/
theorem mem_entriesWhere {s : State} {f : Entry → Bool} (hw : twf none s.store.entries = true) {id : Nat} {e : Entry} :
    (id, e) ∈ entriesWhere s f ↔ s.entry id = some e ∧ f e = true := by
  unfold entriesWhere State.entry
  rw [List.mem_filterMap]
  constructor
  · rintro ⟨⟨k, o⟩, hm, hx⟩
    cases o with
    | none => cases hx
    | some x =>
      dsimp only at hx
      split at hx
      · rename_i hf
        cases hx
        exact ⟨tget_of_mem (twf_iff.1 hw).1 hm, hf⟩
      · cases hx
  · rintro ⟨he, hf⟩
    refine ⟨(id, some e), ?_, by simp [hf]⟩
    have := mem_of_tget_ne (d := none) (t := s.store.entries) (k := id) (by rw [he]; simp)
    rwa [he] at this

/-- What of an entry record stands while it is in use, but for pins set and dropped, and orphaning (R106, R118). -/
def Entry.mark (e : Entry) : Key × Bool × Nat × Nat := (e.key, e.orphan, e.pins, e.pageNeed)

/-- Some frame of the map lies under a serial (R6). -/
def SerialFound (s : State) (n : Nat) : Prop := ∃ clip f i address size, lookup s clip f = .present n i address size

/-- The entry records of `t` are those of `s` with their marks, or new ones without a pin for frames of the map; those with a
pin stand. -/
structure EntriesFollow (s t : State) : Prop where
  wf : twf none t.store.entries = true
  old : ∀ id e', t.entry id = some e' →
    (∃ e, s.entry id = some e ∧ e'.mark = e.mark) ∨ (e'.pins = 0 ∧ SerialFound s e'.key.serial)
  pinned : ∀ id e, s.entry id = some e → 0 < e.pins → ∃ e', t.entry id = some e' ∧ e'.mark = e.mark

theorem lookup_congr {s t : State} (h : t.map = s.map) : lookup t = lookup s := by
  funext clip f
  unfold lookup State.clip
  rw [h]

theorem SerialFound.congr {s t : State} (h : t.map = s.map) (n : Nat) : SerialFound t n ↔ SerialFound s n := by
  unfold SerialFound
  rw [lookup_congr h]

theorem Entry.pins_of_mark {a b : Entry} (h : a.mark = b.mark) : a.pins = b.pins := congrArg (fun m => m.2.2.1) h
theorem Entry.key_of_mark {a b : Entry} (h : a.mark = b.mark) : a.key = b.key := congrArg Prod.fst h
theorem Entry.orphan_of_mark {a b : Entry} (h : a.mark = b.mark) : a.orphan = b.orphan := congrArg (fun m => m.2.1) h
theorem Entry.pageNeed_of_mark {a b : Entry} (h : a.mark = b.mark) : a.pageNeed = b.pageNeed := congrArg (fun m => m.2.2.2) h

theorem EntriesFollow.refl {s t : State} (hw : twf none s.store.entries = true) (h : t.store.entries = s.store.entries) :
    EntriesFollow s t := by
  have he : t.entry = s.entry := by funext id; unfold State.entry; rw [h]
  exact ⟨by rw [h]; exact hw, fun id e' ht => .inl ⟨e', he ▸ ht, rfl⟩, fun id e hs _ => ⟨e, by rw [he]; exact hs, rfl⟩⟩

theorem EntriesFollow.trans {s t u : State} (hm : t.map = s.map) (a : EntriesFollow s t) (b : EntriesFollow t u) :
    EntriesFollow s u where
  wf := b.wf
  old id e' h := by
    rcases b.old id e' h with ⟨e, he, hmark⟩ | ⟨hp, hf⟩
    · rcases a.old id e he with ⟨e0, he0, hmark0⟩ | ⟨hp, hf⟩
      · exact .inl ⟨e0, he0, hmark.trans hmark0⟩
      · rw [← Entry.key_of_mark hmark, ← Entry.pins_of_mark hmark] at *
        exact .inr ⟨hp, hf⟩
    · exact .inr ⟨hp, (SerialFound.congr hm _).1 hf⟩
  pinned id e h hp := by
    obtain ⟨e1, h1, hmark1⟩ := a.pinned id e h hp
    obtain ⟨e2, h2, hmark2⟩ := b.pinned id e1 h1 (by rw [Entry.pins_of_mark hmark1]; exact hp)
    exact ⟨e2, h2, hmark2.trans hmark1⟩

/-- A write of one entry record: it keeps the mark of the record it replaces, or replaces one without a pin, by none or by an
entry without a pin for a frame of the map. -/
theorem EntriesFollow.setEntry {s : State} {id : Nat} {o : Option Entry} (hw : twf none s.store.entries = true)
    (h : (∀ e', o = some e' → (∃ e, s.entry id = some e ∧ e'.mark = e.mark) ∨ (e'.pins = 0 ∧ SerialFound s e'.key.serial)))
    (hp : ∀ e, s.entry id = some e → 0 < e.pins → ∃ e', o = some e' ∧ e'.mark = e.mark) :
    EntriesFollow s (s.setEntry id o) where
  wf := twf_tset none id o hw
  old i e' hi := by
    rw [State.entry_setEntry] at hi
    split at hi
    · rename_i hid; subst hid; exact h e' hi
    · exact .inl ⟨e', hi, rfl⟩
  pinned i e hi hpos := by
    rw [State.entry_setEntry]
    split
    · rename_i hid; subst hid; exact hp e hi hpos
    · exact ⟨e, hi, rfl⟩

/-- A change of one entry record that keeps its mark. -/
theorem EntriesFollow.modEntry {s : State} {id : Nat} {f : Entry → Entry} (hw : twf none s.store.entries = true)
    (hf : ∀ e, (f e).mark = e.mark) : EntriesFollow s (s.modEntry id f) :=
  EntriesFollow.setEntry hw
    (fun e' h => by obtain ⟨e, he, rfl⟩ := Option.map_eq_some_iff.1 h; exact .inl ⟨e, he, hf e⟩)
    (fun e he _ => ⟨f e, by rw [he]; rfl, hf e⟩)

/-- A change of every entry record that keeps their marks. -/
theorem EntriesFollow.ofTmap {s t : State} (f : Nat → Entry → Entry) (hw : twf none s.store.entries = true)
    (ht : t.store.entries = tmap (fun id o => o.map (f id)) s.store.entries) (hf : ∀ id e, (f id e).mark = e.mark) :
    EntriesFollow s t := by
  have he : ∀ id, t.entry id = (s.entry id).map (f id) := fun id => by
    unfold State.entry
    rw [ht, tget_tmap _ _ _ _ rfl]
  refine ⟨by rw [ht]; exact twf_tmap (fun k v hv => by simpa using hv) hw, fun id e' h => ?_, fun id e h _ => ?_⟩
  · rw [he] at h
    obtain ⟨e, hs, rfl⟩ := Option.map_eq_some_iff.1 h
    exact .inl ⟨e, hs, hf id e⟩
  · exact ⟨f id e, by rw [he, h]; rfl, hf id e⟩

end Sys2Proof.Machine

/-! SUPPORT. What the store, the read scheduler and the read-ahead lists do in the course of an act, beyond `Follows`: the list
of no other channel changes but in the status and the reference of its entries, no ring changes, and the entry records follow. -/

namespace Sys2Proof.Machine

/-- A list entry without its status and its store reference. -/
def ListEntry.bare (e : ListEntry) : ListEntry := { e with status := .waiting, ref := none }

/-- A channel record without the status and the reference of its entries, and without `listStands`. -/
def Channel.still (ch : Channel) : Channel := { ch with list := ch.list.map ListEntry.bare, listStands := false }

/-- A channel record without its list. -/
def Channel.bare (ch : Channel) : Channel := { ch with list := [], listStands := false }

theorem Channel.bare_of_still {a b : Channel} (h : a.still = b.still) : a.bare = b.bare :=
  congrArg (fun ch => { ch with list := [] }) h

/-- The state without the store, the read scheduler, the channels, the rings and the answers handed over. -/
def State.beyond (s : State) : State :=
  { s with store := State.reset.store, sched := State.reset.sched, chans := [], rings := [], handed := [] }

/-- What an act on the channels `S` leaves alone: it writes the store, the read scheduler, those channels and their rings, and
hands answers over. -/
structure Acts (S : Nat → Prop) (s t : State) : Prop where
  beyond : t.beyond = s.beyond
  pins : t.store.pins = s.store.pins
  handed : s.handed <+: t.handed
  chans : ∀ c, ¬S c → (t.chan c).still = (s.chan c).still
  rings : ∀ c, ¬S c → t.ring c = s.ring c
  entries : twf none s.store.entries = true → EntriesFollow s t

section
variable {S : Nat → Prop}

theorem Acts.map {s t : State} (a : Acts S s t) : t.map = s.map :=
  show t.beyond.map = s.beyond.map by rw [a.beyond]
theorem Acts.port {s t : State} (a : Acts S s t) : t.port = s.port :=
  show t.beyond.port = s.beyond.port by rw [a.beyond]
theorem Acts.time {s t : State} (a : Acts S s t) : t.time = s.time :=
  show t.beyond.time = s.beyond.time by rw [a.beyond]
theorem Acts.out {s t : State} (a : Acts S s t) : t.out = s.out :=
  show t.beyond.out = s.beyond.out by rw [a.beyond]
theorem Acts.now {s t : State} (a : Acts S s t) : t.now = s.now := congrArg Timebase.house a.time
theorem Acts.clip {s t : State} (a : Acts S s t) (h : Nat) : t.clip h = s.clip h := by unfold State.clip; rw [a.map]
theorem Acts.pin {s t : State} (a : Acts S s t) (p : Nat) : t.pin p = s.pin p := by unfold State.pin; rw [a.pins]

theorem Acts.refl (s : State) : Acts S s s :=
  ⟨rfl, rfl, List.prefix_rfl, fun _ _ => rfl, fun _ _ => rfl, fun hw => EntriesFollow.refl hw rfl⟩

theorem Acts.trans {s t u : State} (a : Acts S s t) (b : Acts S t u) : Acts S s u :=
  ⟨b.beyond.trans a.beyond, b.pins.trans a.pins, a.handed.trans b.handed, fun c h => (b.chans c h).trans (a.chans c h),
    fun c h => (b.rings c h).trans (a.rings c h), fun hw => (a.entries hw).trans a.map (b.entries (a.entries hw).wf)⟩

theorem Acts.mono {T : Nat → Prop} {s t : State} (a : Acts S s t) (h : ∀ c, S c → T c) : Acts T s t :=
  ⟨a.beyond, a.pins, a.handed, fun c hc => a.chans c (fun hs => hc (h c hs)), fun c hc => a.rings c (fun hs => hc (h c hs)),
    a.entries⟩

theorem Acts.ofSched (s : State) (x : Sched) : Acts S s { s with sched := x } :=
  ⟨rfl, rfl, List.prefix_rfl, fun _ _ => rfl, fun _ _ => rfl, fun hw => EntriesFollow.refl hw rfl⟩

theorem Acts.ofStore (s : State) (x : Store) (hp : x.pins = s.store.pins)
    (he : twf none s.store.entries = true → EntriesFollow s { s with store := x }) : Acts S s { s with store := x } :=
  ⟨rfl, hp, List.prefix_rfl, fun _ _ => rfl, fun _ _ => rfl, he⟩

/-- A write of the store's counters alone. -/
theorem Acts.ofCounts (s : State) (x : Store) (hp : x.pins = s.store.pins) (he : x.entries = s.store.entries) :
    Acts S s { s with store := x } := Acts.ofStore s x hp (fun hw => EntriesFollow.refl hw he)

theorem Acts.modEntry (s : State) (id : Nat) (f : Entry → Entry) (hf : ∀ e, (f e).mark = e.mark := by exact fun _ => rfl) :
    Acts S s (s.modEntry id f) :=
  Acts.ofStore s _ rfl (fun hw => EntriesFollow.modEntry hw hf)

/-- A record without a pin becomes free. -/
theorem Acts.setNone (s : State) (id : Nat) (h : ∀ e, s.entry id = some e → e.pins = 0) : Acts S s (s.setEntry id none) :=
  Acts.ofStore s _ rfl (fun hw => EntriesFollow.setEntry hw (by simp)
    (fun e he hp => absurd (h e he) (Nat.pos_iff_ne_zero.1 hp)))

theorem Acts.modChan (s : State) (c : Nat) (f : Channel → Channel) (h : S c ∨ (f (s.chan c)).still = (s.chan c).still) :
    Acts S s (s.modChan c f) :=
  ⟨rfl, rfl, List.prefix_rfl, fun i hi => by
      rw [State.chan_modChan]
      split
      · rename_i e; subst e; exact h.resolve_left hi
      · rfl, fun _ _ => rfl, fun hw => EntriesFollow.refl hw rfl⟩

theorem Acts.modRing (s : State) (c : Nat) (f : Ring → Ring) (h : S c) : Acts S s (s.modRing c f) :=
  ⟨rfl, rfl, List.prefix_rfl, fun _ _ => rfl, fun i hi => by
      rw [State.ring_modRing, if_neg]
      rintro rfl
      exact hi h, fun hw => EntriesFollow.refl hw rfl⟩

theorem Acts.reply (s : State) (t : Ticket) (r : Result) (is : List Item) : Acts S s (s.reply t r is) :=
  ⟨rfl, rfl, ⟨[_], rfl⟩, fun _ _ => rfl, fun _ _ => rfl, fun hw => EntriesFollow.refl hw rfl⟩

theorem Acts.ite {p : Prop} [Decidable p] {s a b : State} (ha : Acts S s a) (hb : Acts S s b) :
    Acts S s (if p then a else b) := by split <;> assumption

theorem Acts.foldl {α : Type} {f : State → α → State} {l : List α} (h : ∀ s, ∀ a ∈ l, Acts S s (f s a)) (s : State) :
    Acts S s (l.foldl f s) := by
  induction l generalizing s with
  | nil => exact Acts.refl s
  | cons a l ih =>
    exact (h s a (List.mem_cons_self ..)).trans (ih (fun s b hb => h s b (List.mem_cons_of_mem _ hb)) _)

theorem Acts.times {f : State → State} (h : ∀ s, Acts S s (f s)) (n : Nat) (s : State) : Acts S s (times f n s) := by
  induction n generalizing s with
  | zero => exact Acts.refl s
  | succ n ih => exact (h s).trans (ih _)

/-! ## The Read Scheduler -/

theorem tellReferrers_acts (s : State) (id : Nat) (st : ListStatus) : Acts S s (tellReferrers s id st) := by
  refine ⟨rfl, rfl, List.prefix_rfl, fun c _ => ?_, fun _ _ => rfl, fun hw => EntriesFollow.refl hw rfl⟩
  unfold State.chan tellReferrers
  rw [tget_tmap _ _ _ _ rfl]
  simp only [Channel.still, List.map_map]
  congr 1
  refine List.map_congr_left fun e _ => ?_
  simp only [Function.comp]
  split <;> rfl

theorem stampEntry_acts (s : State) (id : Nat) : Acts S s (stampEntry s id) :=
  Acts.trans (t := s.modEntry id (fun e => { e with stamp := s.store.stamps })) (Acts.modEntry s id _)
    (Acts.ofCounts _ _ rfl rfl)

theorem stampIfUnused_acts (s : State) (id : Nat) : Acts S s (stampIfUnused s id) := by
  unfold stampIfUnused
  split
  · exact (stampEntry_acts s id).ite (Acts.refl s)
  · exact Acts.refl s

theorem returnPages_acts (s : State) (id : Nat) : Acts S s (returnPages s id) := by
  unfold returnPages
  split
  · rename_i e he
    refine Acts.trans (t := s.setEntry id (some { e with pages := [] })) ?_ (Acts.ofCounts _ _ rfl rfl)
    exact Acts.ofStore s _ rfl (fun hw => EntriesFollow.setEntry hw
      (fun e' h => by cases h; exact .inl ⟨e, he, rfl⟩)
      (fun e0 h0 _ => ⟨_, rfl, by rw [he] at h0; cases h0; rfl⟩))
  · exact Acts.refl s

/-- Giving pages back leaves the record's mark. -/
theorem returnPages_pins {s : State} {id : Nat} (h : ∀ e, s.entry id = some e → e.pins = 0) :
    ∀ e, (returnPages s id).entry id = some e → e.pins = 0 := by
  intro e he
  unfold returnPages at he
  split at he
  · rename_i e0 h0
    have : (s.setEntry id (some { e0 with pages := [] })).entry id = some e := he
    rw [State.entry_setEntry, if_pos rfl] at this
    cases this
    exact h e0 h0
  · exact h e he

theorem freeEntry_acts (s : State) (id : Nat)
    (h : twf none s.store.entries = true → ∀ e, s.entry id = some e → e.pins = 0) : Acts S s (freeEntry s id) := by
  by_cases hw : twf none s.store.entries = true
  · exact (returnPages_acts s id).trans (Acts.setNone _ id (returnPages_pins (h hw)))
  · unfold freeEntry returnPages
    split <;> exact ⟨rfl, rfl, List.prefix_rfl, fun _ _ => rfl, fun _ _ => rfl, fun h => absurd h hw⟩

/-- The read scheduler alone is written. -/
def SchedOnly (s t : State) : Prop := t = { s with sched := t.sched }

theorem SchedOnly.acts {s t : State} (h : SchedOnly s t) : Acts S s t := by rw [h]; exact Acts.ofSched s _
theorem SchedOnly.entry {s t : State} (h : SchedOnly s t) (id : Nat) : t.entry id = s.entry id := by rw [h]; rfl

theorem SchedOnly.trans {s t u : State} (a : SchedOnly s t) (b : SchedOnly t u) : SchedOnly s u := by
  unfold SchedOnly at *
  rw [a] at b
  exact b

theorem SchedOnly.foldl {α : Type} {f : State → α → State} (h : ∀ s a, SchedOnly s (f s a)) (l : List α) (s : State) :
    SchedOnly s (l.foldl f s) := by
  induction l generalizing s with
  | nil => rfl
  | cons a l ih => exact (h s a).trans (ih _)

theorem SchedOnly.times {f : State → State} (h : ∀ s, SchedOnly s (f s)) (n : Nat) (s : State) : SchedOnly s (times f n s) := by
  induction n generalizing s with
  | zero => rfl
  | succ n ih => exact (h s).trans (ih _)

theorem makeSet_sched (s : State) (id i : Nat) (p : Piece) : SchedOnly s (makeSet s id i p) :=
  (SchedOnly.foldl (f := fun s m => makeRead s id i p true m) (fun _ _ => rfl) p.others s).trans rfl

theorem gatherOne_sched (s : State) (id i : Nat) : SchedOnly s (gatherOne s id i) := by
  unfold gatherOne
  split
  · split
    · split
      · exact makeSet_sched _ _ _ _
      · rfl
    · rfl
  · rfl

theorem releaseLoose_sched (s : State) : SchedOnly s (releaseLoose s) := by
  unfold releaseLoose
  split
  · exact gatherOne_sched _ _ _
  · rfl

theorem releaseMany_sched (s : State) (n : Nat) : SchedOnly s (releaseMany s n) := SchedOnly.times releaseLoose_sched n s

theorem closeContext_sched (s : State) (id : Nat) : SchedOnly s (closeContext s id) :=
  SchedOnly.trans (t := detachReads (cancelContext s id (fun _ => none)).1 id) rfl (releaseMany_sched _ _)

theorem convert_sched (s : State) (id i own : Nat) : SchedOnly s (convert s id i own) := by
  unfold convert
  split
  · dsimp only
    split
    · refine SchedOnly.trans ?_ (makeSet_sched _ _ _ _)
      rfl
    · rfl
  · rfl

theorem failEntry_acts (s : State) (id : Nat) (r : FailReason) : Acts S s (failEntry s id r) := by
  have failed : Acts S s ((returnPages s id).modEntry id (fun e => { e with state := .failed r })) :=
    (returnPages_acts s id).trans (Acts.modEntry _ id _)
  exact ((failed.trans (tellReferrers_acts _ id _)).trans (closeContext_sched _ id).acts).trans (stampIfUnused_acts _ id)

theorem handOne_acts {s t : State} {id : Nat} (h : handOne s id = some t) : Acts S s t := by
  have hand : ∀ (n i : Nat) (p : Piece) (f : FillPiece → FillPiece), SchedOnly s (modPiece (makeRead (s.modContext id (fun c =>
      { c with reserve := c.reserve - n })) id i p false p.member) id i f) := fun _ _ _ _ => rfl
  have set : ∀ (n i : Nat) (p : Piece), SchedOnly s (makeSet (s.modContext id (fun c =>
      { c with reserve := c.reserve - n })) id i p) := fun n _ _ =>
    SchedOnly.trans (t := s.modContext id (fun c => { c with reserve := c.reserve - n })) rfl (makeSet_sched _ _ _ _)
  unfold handOne at h
  repeat' (first | split at h | dsimp only at h)
  all_goals first
    | (cases h; done)
    | (simp only [Option.some.injEq] at h; subst h)
  all_goals first
    | exact failEntry_acts _ _ _
    | exact (convert_sched _ _ _ _).acts
    | exact (set _ _ _).acts
    | exact (hand _ _ _ _).acts

theorem spillReserve_acts {s t : State} {id : Nat} (h : spillReserve s id = some t) : Acts S s t := by
  unfold spillReserve at h
  split at h
  · cases h
  · split at h
    · cases h
    · simp only [Option.some.injEq] at h; subst h
      exact (SchedOnly.trans (t := s.modContext id _) rfl (releaseMany_sched _ _)).acts

theorem handStep_acts {s t : State} (h : handStep s = some t) : Acts S s t := by
  obtain ⟨c, -, hc⟩ := firstSome_mem h
  split at hc
  · rename_i s' hs
    simp only [Option.some.injEq] at hc; subst hc
    exact handOne_acts hs
  · exact spillReserve_acts hc

/-! ## The Frame Store -/

/-- The head of the reclaim list has no pin. -/
theorem reclaimOne_acts (s : State) : Acts S s (reclaimOne s) := by
  unfold reclaimOne
  split
  · rename_i id e h
    refine freeEntry_acts s id (fun hw e' he' => ?_)
    obtain ⟨he, hr⟩ := (mem_entriesWhere hw).1 (bestBy_mem h)
    rw [he] at he'; cases he'
    simp only [Entry.reclaimable, Entry.unused, Bool.and_eq_true, beq_iff_eq] at hr
    exact hr.1.1.2
  · exact Acts.refl s

theorem judged_acts (s : State) (c : Nat) : Acts S s (s.modChan c Channel.judged) := Acts.modChan s c _ (.inr rfl)

theorem endOverload_acts (s : State) : Acts S s (endOverload s) :=
  Acts.trans (t := { s with store := { s.store with overload := false } }) (Acts.ofCounts s _ rfl rfl)
    (Acts.foldl (fun s c _ => judged_acts s c.1) _)

theorem judgeOverload_acts {s t : State} (h : judgeOverload s = some t) : Acts S s t := by
  obtain ⟨-, -, rfl⟩ | ⟨-, -, rfl⟩ := judgeOverload_cases h
  · exact endOverload_acts s
  · exact Acts.ofCounts s _ rfl rfl

theorem overloadJudged_acts (s : State) : Acts S s (overloadJudged s) := by
  unfold overloadJudged
  cases h : judgeOverload s with
  | none => exact Acts.refl s
  | some t => exact judgeOverload_acts h

theorem freeRecord_acts (s : State) : Acts S s (freeRecord s).1 := by
  unfold freeRecord
  dsimp only
  split
  · exact Acts.refl s
  · exact reclaimOne_acts s

/-- The record taken for a new entry is free. -/
theorem freeRecord_free {s : State} (hw : twf none s.store.entries = true) :
    (freeRecord s).1.entry (freeRecord s).2 = none := by
  have gap : ∀ {s : State}, twf none s.store.entries = true → s.entry (firstGap 0 s.store.entries) = none := fun hw =>
    tget_of_unlisted (firstGap_unlisted (twf_iff.1 hw).1)
  unfold freeRecord
  dsimp only
  split
  · exact gap hw
  · exact gap ((reclaimOne_acts (S := fun _ => False) s).entries hw).wf

@[simp] theorem newEntry_key (s : State) (k : Key) (v : Nat) (l : Location) (n : Nat) : (newEntry s k v l n).key = k := by
  unfold newEntry
  dsimp only
  split <;> rfl

@[simp] theorem newEntry_pins (s : State) (k : Key) (v : Nat) (l : Location) (n : Nat) : (newEntry s k v l n).pins = 0 := by
  unfold newEntry
  dsimp only
  split <;> rfl

/-- An entry is admitted for a frame of the map (R108, R109). -/
theorem findOrAdmit_acts (s : State) (k : Key) (v : Nat) (l : Location) (hk : SerialFound s k.serial) :
    Acts S s (findOrAdmit s k v l).1 := by
  unfold findOrAdmit
  split
  · exact Acts.refl s
  · have free := freeRecord_acts (S := S) s
    have found : SerialFound (freeRecord s).1 k.serial := (SerialFound.congr free.map _).2 hk
    generalize hx : freeRecord s = x at free found
    by_cases hw : twf none s.store.entries = true
    · have set : Acts S x.1 (x.1.setEntry x.2 (some (newEntry s k v l s.store.arrivals))) := by
        refine Acts.ofStore x.1 _ rfl fun hw1 => EntriesFollow.setEntry hw1 (fun e' he => ?_) (fun e he _ => ?_)
        · cases he
          exact .inr ⟨newEntry_pins .., by rw [newEntry_key]; exact found⟩
        · rw [← hx, freeRecord_free hw] at he
          cases he
      exact (free.trans set).trans (Acts.ofCounts _ _ rfl rfl)
    · exact ⟨free.beyond, free.pins, free.handed, free.chans, free.rings, fun h => absurd h hw⟩

theorem addRef_acts (s : State) (id : Nat) : Acts S s (addRef s id) :=
  (Acts.modEntry s id _).trans (overloadJudged_acts _)

theorem abandon_acts (s : State) (id : Nat) (h : ∀ e, s.entry id = some e → e.pins = 0) : Acts S s (abandon s id) := by
  have cancel : SchedOnly (returnPages s id)
      (cancelContext (returnPages s id) id (Option.map (fun _ => (⟨[], 0, true⟩ : Context)))).1 := rfl
  unfold abandon
  dsimp only
  generalize cancelContext (returnPages s id) id _ = x at cancel
  have many := cancel.trans (releaseMany_sched x.1 x.2)
  have acts := (returnPages_acts (S := S) s id).trans many.acts
  split
  · refine acts.trans (Acts.trans (t := (releaseMany x.1 x.2).setContext id none) (Acts.ofSched _ _) (freeEntry_acts _ id ?_))
    intro _ e he
    exact returnPages_pins h e ((many.entry id).symm.trans he)
  · exact acts.trans (Acts.modEntry _ id _)

theorem settlePlace_acts (s : State) (id : Nat) : Acts S s (settlePlace s id) := by
  unfold settlePlace
  split
  · exact Acts.refl s
  · rename_i e he
    have unpinned : e.pins = 0 → ∀ e', s.entry id = some e' → e'.pins = 0 := fun h e' h' => by
      rw [he] at h'; cases h'; exact h
    split
    · split
      · rename_i hu
        exact (abandon_acts _ _ (unpinned hu.2)).ite (freeEntry_acts _ _ (fun _ => unpinned hu.2))
      · exact Acts.refl s
    · exact Acts.refl s
    · split
      · rename_i hu
        have hp : e.pins = 0 := by
          simp only [Entry.unused, Bool.and_eq_true, beq_iff_eq] at hu
          exact hu.1.2
        exact (freeEntry_acts _ _ (fun _ => unpinned hp)).ite (stampEntry_acts _ _)
      · exact Acts.refl s

theorem lowerCount_acts (s : State) (id : Nat) (f : Entry → Entry) (hf : ∀ e, (f e).mark = e.mark) :
    Acts S s (lowerCount s id f) :=
  ((Acts.modEntry s id f hf).trans (settlePlace_acts _ _)).trans (overloadJudged_acts _)

theorem releaseRef_acts (s : State) (id : Nat) : Acts S s (releaseRef s id) := lowerCount_acts _ _ _ (fun _ => rfl)

theorem reclaimFor_acts (need n : Nat) (s : State) : Acts S s (reclaimFor need n s) := by
  induction n generalizing s with
  | zero => exact Acts.refl s
  | succ n ih =>
    unfold reclaimFor
    split
    · exact (reclaimOne_acts s).trans (ih _)
    · exact Acts.refl s

theorem failWaiting_acts (s : State) (id : Nat) : Acts S s (failWaiting s id) :=
  ((Acts.modEntry s id _).trans (tellReferrers_acts _ _ _)).trans (stampIfUnused_acts _ _)

end
end Sys2Proof.Machine

/-! SUPPORT. `Acts` for the operations on a channel's list, course and play, and for one consequence of an event at a time. -/

namespace Sys2Proof.Machine

section
variable {S : Nat → Prop}

theorem Acts.modOwn (s : State) (c : Nat) (f : Channel → Channel) : Acts (· = c) s (s.modChan c f) := Acts.modChan s c f (.inl rfl)

theorem Acts.modOwnRing (s : State) (c : Nat) (f : Ring → Ring) : Acts (· = c) s (s.modRing c f) := Acts.modRing s c f rfl

theorem releaseEntries_acts (s : State) (es : List ListEntry) : Acts S s (releaseEntries s es) :=
  Acts.foldl (fun s e _ => by
    split
    · exact releaseRef_acts _ _
    · exact Acts.refl s) s

theorem setList_acts (s : State) (c : Nat) (l : List ListEntry) : Acts (· = c) s (setList s c l) := Acts.modChan s c _ (.inl rfl)

theorem recompute_acts (s : State) (c : Nat) (k : Recompute) (n : Word32) : Acts (· = c) s (recompute s c k n) :=
  (setList_acts _ _ _).trans (releaseEntries_acts _ _)

theorem releaseList_acts (s : State) (c : Nat) : Acts (· = c) s (releaseList s c) :=
  (setList_acts _ _ _).trans (releaseEntries_acts _ _)

theorem reresolveGroup_acts (s : State) (c g : Nat) : Acts (· = c) s (reresolveGroup s c g) :=
  (Acts.modOwn s c _).trans (releaseEntries_acts _ _)

theorem decideRevoke_acts (s : State) (c : Nat) (r : Word32) (b : Bool) : Acts (· = c) s (decideRevoke s c r b) := by
  unfold decideRevoke
  exact Acts.trans (Acts.modOwnRing s c _) (Acts.modOwn _ c _)

theorem revokeFrom_acts (s : State) (c : Nat) (r : Word32) (b : Bool) : Acts (· = c) s (revokeFrom s c r b) :=
  (decideRevoke_acts s c r b).ite (Acts.refl s)

theorem applyCourse_acts (s : State) (c : Nat) : Acts (· = c) s (applyCourse s c) := by
  unfold applyCourse
  split
  · exact (Acts.reply _ _ _ _).trans (Acts.modOwn _ c _)
  · exact Acts.refl s

theorem endPlay_acts (s : State) (c : Nat) (p : Int) : Acts (· = c) s (endPlay s c p) :=
  (applyCourse_acts s c).trans (Acts.modOwn _ c _)

theorem groupChanged_acts (g : Nat) (s : State) (c : Nat) : Acts (· = c) s (groupChanged g s c) := by
  unfold groupChanged
  dsimp only
  refine Acts.trans ?_ (reresolveGroup_acts _ c g)
  split
  · exact (decideRevoke_acts _ _ _ _).trans (recompute_acts _ _ _ _)
  · exact Acts.refl s

theorem rangeRunning_acts (s : State) (c i l : Nat) : Acts (· = c) s (rangeRunning s c i l) := by
  have shown : ∀ s1 : State, Acts (· = c) s1 (recompute (s1.modChan c (fun ch => ch.withRange i l)) c .trim (s.chan c).dueIndex) :=
    fun s1 => (Acts.modOwn s1 c _).trans (recompute_acts _ _ _ _)
  unfold rangeRunning
  dsimp only
  split
  · exact ((decideRevoke_acts _ _ _ _).trans (shown _)).trans (recompute_acts _ _ _ _)
  · exact shown s

theorem rangeEnds_acts (s : State) (c i l : Nat) : Acts (· = c) s (rangeEnds s c i l) :=
  (((revokeFrom_acts _ _ _ _).trans (Acts.modOwn _ c _)).trans (endPlay_acts _ _ _)).trans (recompute_acts _ _ _ _)

theorem lengthChanged_acts (n : Nat) (s : State) (c : Nat) : Acts (· = c) s (lengthChanged n s c) := by
  unfold lengthChanged
  dsimp only
  split
  · exact (rangeEnds_acts _ _ _ _).ite (rangeRunning_acts _ _ _ _)
  · exact (Acts.modOwn s c _).trans (recompute_acts _ _ _ _)

theorem growthEnded_acts (s : State) (c : Nat) : Acts (· = c) s (growthEnded s c) := by
  unfold growthEnded
  dsimp only
  exact (Acts.refl s).ite ((((revokeFrom_acts _ _ _ _).trans (endPlay_acts _ _ _)).trans (recompute_acts _ _ _ _)).ite
    ((Acts.modOwn s c _).trans (recompute_acts _ _ _ _)))

theorem extendOne_acts {s t : State} {c : Nat} {ch : Channel} (h : extendOne s c ch = some t) : Acts (· = c) s t := by
  unfold extendOne at h
  split at h
  · obtain ⟨d, -, rfl⟩ := Option.map_eq_some_iff.1 h
    exact setList_acts _ _ _
  · cases h

theorem extendFor_acts (c n : Nat) (s : State) : Acts (· = c) s (extendFor c n s) := by
  induction n generalizing s with
  | zero => exact Acts.refl s
  | succ n ih =>
    unfold extendFor
    split
    · rename_i t ht
      exact (extendOne_acts ht).trans (ih t)
    · exact Acts.refl s

theorem growthBegan_acts (s : State) (c : Nat) : Acts (· = c) s (growthBegan s c) :=
  (extendFor_acts _ _ _).trans (Acts.modOwn _ c _)

/-- An act on each channel of a list is an act on the channels of the list. -/
theorem Acts.each {f : State → Nat → State} (h : ∀ s c, Acts (· = c) s (f s c)) (l : List Nat) (s : State) :
    Acts (· ∈ l) s (l.foldl f s) :=
  Acts.foldl (fun s c hc => (h s c).mono (fun _ e => e ▸ hc)) s

/-! ## Consequences -/

/-- A record that an act may have cleared is written again with its mark. -/
theorem EntriesFollow.setBack {s t : State} {id : Nat} {e e' : Entry} (a : EntriesFollow s t) (he : s.entry id = some e)
    (h : e'.mark = e.mark) : EntriesFollow s (t.setEntry id (some e')) where
  wf := twf_tset none id (some e') a.wf
  old i x hx := by
    rw [State.entry_setEntry] at hx
    split at hx
    · rename_i hid; subst hid; cases hx; exact .inl ⟨e, he, h⟩
    · exact a.old i x hx
  pinned i x hx hp := by
    rw [State.entry_setEntry]
    split
    · rename_i hid; subst hid; rw [he] at hx; cases hx; exact ⟨e', rfl, h⟩
    · exact a.pinned i x hx hp

theorem makeGrant_acts (s : State) (id : Nat) (e : Entry) (ks : List FillPiece) (a : Nat)
    (he : twf none s.store.entries = true → s.entry id = some e) : Acts S s (makeGrant s id e ks a) := by
  have free := reclaimFor_acts (S := S) e.pageNeed s.store.entries.length s
  unfold makeGrant
  dsimp only
  generalize reclaimFor e.pageNeed s.store.entries.length s = s1 at free
  have set : ∀ e' : Entry, e'.mark = e.mark → Acts S s (s1.setEntry id (some e')) := fun e' hm =>
    ⟨free.beyond, free.pins, free.handed, free.chans, free.rings, fun hw => (free.entries hw).setBack (he hw) hm⟩
  have rest : ∀ (t : State) (n m : Nat) (c : Option Context) (st : ListStatus), Acts S t (tellReferrers (State.setContext { t with
      store := { t.store with freePages := n }, sched := { t.sched with freeRecords := m } } id c) id st) := fun t n m c st =>
    ((Acts.ofCounts t { t.store with freePages := n } rfl rfl).trans (Acts.ofSched _ _)).trans
      ((Acts.ofSched _ _).trans (tellReferrers_acts _ id st))
  refine Acts.trans ?_ (rest _ _ _ _ _)
  exact set _ rfl

theorem grantHead_acts {s t : State} (h : grantHead s = some t) : Acts S s t := by
  unfold grantHead at h
  repeat' (first | split at h | dsimp only at h)
  all_goals first
    | (cases h; done)
    | (simp only [Option.some.injEq] at h; subst h)
  · exact failWaiting_acts _ _
  · exact Acts.modEntry _ _ _
  · rename_i hw _ _ _ _ _ _
    exact makeGrant_acts _ _ _ _ _ (fun hwf => ((mem_entriesWhere hwf).1 (bestBy_mem hw)).1)

theorem modList_acts (s : State) (c i : Nat) (f : ListEntry → ListEntry) (hf : ∀ e, (f e).bare = e.bare) :
    Acts S s (modList s c i f) := by
  refine Acts.modChan s c _ (.inr ?_)
  have : ∀ (l : List ListEntry) (i : Nat), (modAt f i l).map ListEntry.bare = l.map ListEntry.bare := by
    intro l
    induction l with
    | nil => intro i; cases i <;> rfl
    | cons e l ih => intro i; cases i <;> simp [modAt, hf, ih]
  simp only [Channel.still, this]

/-- A list entry is resolved (R80). -/
theorem resolveAt_acts (s : State) (c i : Nat) : Acts S s (resolveAt s c i) := by
  unfold resolveAt
  dsimp only
  split
  · exact Acts.refl s
  · split
    · rename_i hl
      split
      · exact modList_acts _ _ _ _ (fun _ => rfl)
      · exact ((findOrAdmit_acts _ _ _ _ ⟨_, _, _, _, _, hl⟩).trans (addRef_acts _ _)).trans (modList_acts _ _ _ _ (fun _ => rfl))
    · exact modList_acts _ _ _ _ (fun _ => rfl)

theorem refreshUrgency_acts (s : State) : Acts S s (refreshUrgency s) :=
  Acts.trans (t := { s with store := { s.store with
      entries := tmap (fun id o => o.map (withDeadlines (deadlinesGiven s) id)) s.store.entries } })
    (Acts.ofStore s _ rfl (fun hw => EntriesFollow.ofTmap _ hw rfl (fun _ _ => rfl))) (Acts.ofSched _ _)

end
end Sys2Proof.Machine

/-! SUPPORT. What the consequences of an event leave of the store, of a channel that does not run and of a waiting REVOKE. -/

namespace Sys2Proof.Machine

/-- The record of a REVOKE as it is written: in the next slot, with the gap count (R101). -/
def Ring.revokeOutput (r : Ring) (v : Revoke) : Output :=
  .record (r.recordAddress r.nextSlot) ⟨.revoke, .none, false, false, false, v.clip, r.gap, v.period, 0, 0, v.due⟩

/-- What follows within an event, beyond `Follows`: the entry records follow, the last record period of a channel that does not
run stands, and a waiting REVOKE waits on in the ring as it was or is written. -/
structure Late (s t : State) : Prop where
  map : t.map = s.map
  out : s.out <+: t.out
  entries : twf none s.store.entries = true → EntriesFollow s t
  ended : ∀ c, (s.chan c).state ≠ .running → (t.chan c).state ≠ .running ∧ (t.chan c).lastRecord = (s.chan c).lastRecord
  waiting : ∀ c v, (s.ring c).revoke = some v → t.ring c = s.ring c ∨ (s.ring c).revokeOutput v ∈ outputsSince s t

theorem Late.refl (s : State) : Late s s :=
  ⟨rfl, List.prefix_rfl, fun h => EntriesFollow.refl h rfl, fun _ h => ⟨h, rfl⟩, fun _ _ _ => .inl rfl⟩

theorem Late.trans {s t u : State} (a : Late s t) (b : Late t u) : Late s u where
  map := b.map.trans a.map
  out := a.out.trans b.out
  entries h := (a.entries h).trans a.map (b.entries (a.entries h).wf)
  ended c h := by
    obtain ⟨h1, l1⟩ := a.ended c h
    obtain ⟨h2, l2⟩ := b.ended c h1
    exact ⟨h2, l2.trans l1⟩
  waiting c v h := by
    rcases a.waiting c v h with e | w
    · rw [← e] at h ⊢
      exact (b.waiting c v h).imp_right (fun w => drop_mem_of_later a.out b.out w)
    · exact .inr (drop_mem_of_prefix a.out b.out w)

/-- An event that changes no ring and no last record period. -/
theorem Late.ofFollows {s t : State} (f : Follows s t) (he : twf none s.store.entries = true → EntriesFollow s t)
    (hl : ∀ c, (s.chan c).state ≠ .running → (t.chan c).lastRecord = (s.chan c).lastRecord)
    (hr : ∀ c, (s.ring c).revoke ≠ none → t.ring c = s.ring c) : Late s t where
  map := f.map
  out := f.out
  entries := he
  ended c h := ⟨by rcases f.state c with e | ⟨-, e⟩ <;> rw [e]; exacts [h, nofun], hl c h⟩
  waiting c v h := .inl (hr c (by rw [h]; nofun))

theorem Acts.late {s t : State} (a : Acts (fun _ => False) s t) (f : Follows s t) : Late s t :=
  Late.ofFollows f a.entries (fun c _ => congrArg (fun ch => ch.lastRecord) (a.chans c id)) (fun c _ => a.rings c id)

/-- A change of channel records that leaves the last record periods. -/
theorem Late.modChan {s : State} {c : Nat} {g : Channel → Channel} (f : Follows s (s.modChan c g))
    (hl : (g (s.chan c)).lastRecord = (s.chan c).lastRecord ∨ (s.chan c).state = .running) : Late s (s.modChan c g) := by
  refine Late.ofFollows f (fun hw => EntriesFollow.refl hw rfl) (fun i h => ?_) (fun _ _ => rfl)
  rw [State.chan_modChan]
  split
  · rename_i e; subst e; exact hl.resolve_right h
  · rfl

/-- The ring of a channel without a waiting REVOKE changes. -/
theorem Late.setRing {s : State} {c : Nat} {r : Ring} (hk : r.kept = (s.ring c).kept) (h : (s.ring c).revoke = none) :
    Late s (s.setRing c r) := by
  refine Late.ofFollows (Follows.setRing s c r hk) (fun hw => EntriesFollow.refl hw rfl) (fun i _ => rfl) (fun i hi => ?_)
  rw [State.ring_setRing, if_neg]
  rintro rfl
  exact hi h

theorem Late.emit (s : State) (o : Output) : Late s (s.emit o) :=
  Late.ofFollows (Follows.emit s o) (fun hw => EntriesFollow.refl hw rfl) (fun _ _ => rfl) (fun _ _ => rfl)

theorem Late.reply (s : State) (t : Ticket) (r : Result) (is : List Item) : Late s (s.reply t r is) :=
  Late.ofFollows (Follows.reply s t r is) (fun hw => EntriesFollow.refl hw rfl) (fun _ _ => rfl) (fun _ _ => rfl)

/-! ## One consequence at a time -/

theorem resolveStep_late {s t : State} (h : resolveStep s = some t) : Late s t := by
  obtain ⟨c, -, hc⟩ := firstSome_mem h
  obtain ⟨i, -, rfl⟩ := Option.map_eq_some_iff.1 hc
  exact (resolveAt_acts _ _ _).late (resolveAt_follows _ _ _)

theorem extendStep_late {s t : State} (h : extendStep s = some t) : Late s t := by
  obtain ⟨c, -, hc⟩ := firstSome_mem h
  unfold extendOne at hc
  split at hc
  · obtain ⟨d, -, rfl⟩ := Option.map_eq_some_iff.1 hc
    exact Late.modChan (setList_follows _ _ _) (.inl rfl)
  · cases hc

theorem completeCue_late (s : State) (c : Nat) (short : Bool) (n : Nat) (h : (s.chan c).state = .cueing) :
    Late s (completeCue s c short n) := by
  refine Late.ofFollows (completeCue_follows s c short n h) (fun hw => ?_) (fun i _ => ?_) (fun i _ => ?_)
  · refine EntriesFollow.refl hw ?_
    unfold completeCue; dsimp only; split <;> rfl
  · unfold completeCue
    dsimp only
    rw [State.chan_modChan]
    split
    · rename_i e; subst e; split <;> rfl
    · split <;> rfl
  · unfold completeCue; dsimp only; split <;> rfl

theorem cueStep_late {s t : State} (h : cueStep s = some t) : Late s t := by
  obtain ⟨c, -, hc⟩ := firstSome_mem h
  unfold cueOne at hc
  split at hc
  · rename_i hs
    simp only [Option.some.injEq] at hc
    subst hc
    exact completeCue_late _ _ _ _ hs.1
  · cases hc

theorem publishOne_late (c : Nat) (s : State) (h : (s.ring c).revoke = none) : Late s (publishOne c s) := by
  unfold publishOne
  dsimp only
  exact (Late.setRing (by rfl) h).trans (Late.emit _ _)

theorem writeNoData_late (s : State) (c : Nat) (d : Record) (h : (s.ring c).revoke = none) : Late s (writeNoData s c d) := by
  have step : ∀ (r : Ring) (o : Output), r.kept = (s.ring c).kept → r.revoke = none →
      Late s ((s.setRing c r).emit o) ∧ ((s.setRing c r).ring c).revoke = none := fun r o hk hr =>
    ⟨(Late.setRing hk h).trans (Late.emit _ _), by rw [State.ring_setRing, if_pos rfl]; exact hr⟩
  obtain ⟨hl, hn⟩ := step { (s.ring c).advance with taken := (s.ring c).taken + 1 }
    (.record ((s.ring c).recordAddress (s.ring c).nextSlot) { d with gap := (s.ring c).gap }) (by rfl) h
  unfold writeNoData
  dsimp only
  split
  · exact hl
  · exact hl.trans (publishOne_late _ _ hn)

theorem markWritten_late (s : State) (c : Nat) (n : Word32) (h : (s.chan c).state = .running) : Late s (markWritten s c n) :=
  Late.modChan (markWritten_follows _ _ _) (.inr h)

theorem writeNoData_chans (s : State) (c : Nat) (d : Record) : (writeNoData s c d).chans = s.chans := by
  unfold writeNoData
  dsimp only
  split <;> rfl

theorem writeNoData_store (s : State) (c : Nat) (d : Record) : (writeNoData s c d).store = s.store := by
  unfold writeNoData
  dsimp only
  split <;> rfl

/-- A waiting REVOKE is written; what its ring holds after it matters no more. -/
theorem writeRevoke_late (s : State) (c : Nat) (v : Revoke) (h : (s.ring c).revoke = some v) : Late s (writeRevoke s c v) := by
  have f := writeRevoke_follows s c v
  refine ⟨f.map, f.out, fun hw => EntriesFollow.refl hw ?_, fun i hi => ?_, fun i w hw => ?_⟩
  · exact congrArg Store.entries (writeNoData_store _ _ _)
  · have : (writeRevoke s c v).chan i = s.chan i := congrArg (fun t => tget Channel.initial t i) (writeNoData_chans _ _ _)
    rw [this]
    exact ⟨hi, rfl⟩
  · by_cases e : i = c
    · subst e
      rw [h] at hw; cases hw
      refine .inr ?_
      have : (writeRevoke s i v).out = (writeNoData s i ⟨.revoke, .none, false, false, false, v.clip, 0, v.period, 0, 0, v.due⟩).out := rfl
      unfold outputsSince
      rw [this]
      unfold writeNoData
      dsimp only
      split <;> simp [State.emit, publishOne, Ring.revokeOutput]
    · refine .inl ?_
      unfold writeRevoke writeNoData publishOne
      dsimp only
      rw [State.ring_modRing, if_neg e]
      split
      · exact (State.ring_setRing _ _ _ _).trans (if_neg e)
      · exact ((State.ring_setRing _ _ _ _).trans (if_neg e)).trans ((State.ring_setRing _ _ _ _).trans (if_neg e))

theorem writeRepeat_late (s : State) (c : Nat) (e : ListEntry) (p : Cursor) (h : (s.chan c).state = .running)
    (hr : (s.ring c).revoke = none) : Late s (writeRepeat s c e p) := by
  unfold writeRepeat
  refine (writeNoData_late _ _ _ hr).trans (markWritten_late _ _ _ ?_)
  unfold State.chan
  rw [writeNoData_chans]
  exact h

theorem beginTransfer_late (s : State) (c id : Nat) (x : Entry) (p : Cursor) (h : (s.chan c).state = .running)
    (hr : (s.ring c).revoke = none) : Late s (beginTransfer s c id x p) := by
  unfold beginTransfer
  dsimp only
  exact ((Late.setRing (by rfl) hr).trans ((Acts.modEntry _ _ _).late (addHold_follows _ _))).trans (markWritten_late _ _ _ h)

theorem deliverPeriod_late {s t : State} {c : Nat} (h : deliverPeriod s c = some t) (hs : (s.chan c).state = .running)
    (hr : (s.ring c).revoke = none) : Late s t := by
  unfold deliverPeriod at h
  dsimp only at h
  repeat' (split at h)
  all_goals first
    | (cases h; done)
    | (simp only [Option.some.injEq] at h; subst h; exact writeRepeat_late _ _ _ _ hs hr)
    | skip
  unfold beginIfReady at h
  split at h
  · obtain ⟨x, -, rfl⟩ := Option.map_eq_some_iff.1 h
    exact beginTransfer_late _ _ _ _ _ hs hr
  · cases h

theorem deliverStep_late {s t : State} (h : deliverStep s = some t) : Late s t := by
  obtain ⟨c, -, hc⟩ := firstSome_mem h
  unfold deliverOne at hc
  dsimp only at hc
  split at hc
  · cases hc
  · split at hc
    · rename_i v hv
      simp only [Option.some.injEq] at hc; subst hc
      exact writeRevoke_late _ _ _ hv
    · rename_i hr
      split at hc
      · rename_i hs
        exact deliverPeriod_late hc hs hr
      · cases hc

theorem issueStep_late {s t : State} (h : issueStep s = some t) : Late s t := by
  obtain ⟨m, -, hm⟩ := firstSome_mem h
  have f := issueOne_follows hm
  unfold issueOne at hm
  split at hm
  · split at hm
    · cases hm
    · split at hm
      · cases hm
      · simp only [Option.some.injEq] at hm
        subst hm
        exact Late.ofFollows f (fun hw => EntriesFollow.refl hw rfl) (fun _ _ => rfl) (fun _ _ => rfl)
  · cases hm

theorem orStep_late {a b : State → Option State} (ha : ∀ {s t}, a s = some t → Late s t)
    (hb : ∀ {s t}, b s = some t → Late s t) {s t : State} (h : orStep a b s = some t) : Late s t := by
  unfold orStep at h
  split at h
  · rename_i x hx
    simp only [Option.some.injEq] at h
    subst h
    exact ha hx
  · exact hb h

theorem settleStep_late {s t : State} (h : settleStep s = some t) : Late s t :=
  orStep_late (fun h => (handStep_acts h).late (handStep_follows h))
    (orStep_late (fun h => (judgeOverload_acts h).late (judgeOverload_follows h))
      (orStep_late (fun h => (grantHead_acts h).late (grantHead_follows h))
        (orStep_late resolveStep_late (orStep_late extendStep_late (orStep_late cueStep_late
          (orStep_late deliverStep_late issueStep_late)))))) h

theorem settleFor_late (n : Nat) (s : State) : Late s (settleFor n s) := by
  induction n generalizing s with
  | zero => exact Late.refl s
  | succ n ih =>
    have fresh := (refreshUrgency_acts s).late (refreshUrgency_follows s)
    unfold settleFor
    dsimp only
    split
    · rename_i t ht
      exact (fresh.trans (settleStep_late ht)).trans (ih t)
    · exact fresh

theorem settle_late (s : State) : Late s (settle s) := settleFor_late _ s

/-! ## The end of the event -/

/-- A change of the port, the flags and the outputs alone. -/
theorem Late.ofFlags {s t : State} (hm : t.map = s.map) (ho : s.out <+: t.out) (he : t.store = s.store) (hr : t.rings = s.rings)
    (hc : ∀ c, ∃ f, t.chan c = { s.chan c with flags := f }) : Late s t where
  map := hm
  out := ho
  entries hw := EntriesFollow.refl hw (congrArg Store.entries he)
  ended c h := by
    obtain ⟨f, hf⟩ := hc c
    rw [hf]
    exact ⟨h, rfl⟩
  waiting c v _ := .inl (congrArg (fun t => tget Ring.initial t c) hr)

theorem finish_late (s0 s : State) : Late s (finish s0 s) := by
  have conditions : Late s (applyConditions s0 s) := Late.ofFlags rfl List.prefix_rfl rfl rfl fun c => by
    obtain ⟨f, hf⟩ := applyChanConditions_get s.port s0.chans s.chans c
    exact ⟨_, hf⟩
  refine conditions.trans ?_
  obtain ⟨x, o, hf⟩ := finish_eq s0 s
  obtain ⟨a, v, st, o2, hw, -⟩ := writeAnswers_fold
    (sortBy (fun a b => decide (a.ticket.seq < b.ticket.seq)) (applyConditions s0 s).handed) (applyConditions s0 s)
  have hw' : writeAnswers (applyConditions s0 s) = { applyConditions s0 s with
      port := { (applyConditions s0 s).port with produced := a, reserved := v, state := st }
      out := (applyConditions s0 s).out ++ o2, handed := [] } := by
    unfold writeAnswers
    rw [hw]
  rw [hf, hw']
  exact Late.ofFlags rfl ⟨o2 ++ o, by simp⟩ rfl rfl (fun c => ⟨_, rfl⟩)

theorem startRead_late (s : State) : Late s (startRead s) := by
  rcases startRead_eq s with h | ⟨-, h⟩
  · rw [h]; exact Late.refl s
  · rw [h]; exact Late.ofFlags rfl ⟨[_], rfl⟩ rfl rfl (fun c => ⟨_, rfl⟩)

theorem endEvent_late (s0 s : State) : Late s (endEvent s0 s) :=
  ((settle_late s).trans (finish_late s0 _)).trans (startRead_late _)

/-! ## From an act to the state after its event -/

/-- What follows an act in its event: `Late`, with pins standing and flags only added. -/
structure Closes (s t : State) : Prop where
  late : Late s t
  pins : t.store.pins = s.store.pins
  flags : ∀ c, FlagsAdded lateFlags (s.chan c).flags (t.chan c).flags

theorem Closes.trans {s t u : State} (a : Closes s t) (b : Closes t u) : Closes s u :=
  ⟨a.late.trans b.late, b.pins.trans a.pins, fun c => (a.flags c).trans (b.flags c)⟩

theorem Closes.reply (s : State) (t : Ticket) (r : Result) (is : List Item) : Closes s (s.reply t r is) :=
  ⟨Late.reply s t r is, rfl, fun _ => FlagsAdded.refl _ _⟩

theorem settle_closes (s : State) : Closes s (settle s) :=
  ⟨settle_late s, (settle_follows s).pins, fun c => ((settle_follows s).flags c).wider (by decide)⟩

theorem endEvent_closes (s0 s : State) : Closes s (endEvent s0 s) :=
  ⟨endEvent_late s0 s, (endEvent_ends s0 s).pins, (endEvent_ends s0 s).flags⟩

end Sys2Proof.Machine

/-! SUPPORT. Acts by what they touch: `Does`, a frame that composes, and the writes it is built from. The forced unbinding of a
clip's channels and the freeing of a clip (R22, R67). -/

namespace Sys2Proof.Machine

/-- An act that touches `w` alone, leaves house time and keeps the answers already handed over. -/
structure Does (w : Touched) (s t : State) : Prop where
  frame : Frame w s t
  now : t.now = s.now
  handed : s.handed <+: t.handed

theorem SettingsStand.ofPort {s t : State} (h : t.port = s.port) : SettingsStand s t := by constructor <;> rw [h]

section
variable {w : Touched}

theorem Does.refl (s : State) : Does w s s := ⟨Frame.refl w s, rfl, List.prefix_rfl⟩

theorem Does.trans {s t u : State} (a : Does w s t) (b : Does w t u) : Does w s u :=
  ⟨a.frame.trans b.frame a.now, b.now.trans a.now, a.handed.trans b.handed⟩

theorem Does.ite {p : Prop} [Decidable p] {s a b : State} (ha : Does w s a) (hb : Does w s b) :
    Does w s (if p then a else b) := by split <;> assumption

theorem Does.foldl {α : Type} {f : State → α → State} {l : List α} (h : ∀ s, ∀ a ∈ l, Does w s (f s a)) (s : State) :
    Does w s (l.foldl f s) := by
  induction l generalizing s with
  | nil => exact Does.refl s
  | cons a l ih => exact (h s a (List.mem_cons_self ..)).trans (ih (fun s b hb => h s b (List.mem_cons_of_mem _ hb)) _)

theorem Follows.does {s t : State} (f : Follows s t) : Does w s t := ⟨f.frame w, f.now, f.handed⟩

theorem Does.reply (s : State) (t : Ticket) (r : Result) (is : List Item) : Does w s (s.reply t r is) := (Follows.reply s t r is).does

/-- Some records are written, those of the touched parts alone. -/
theorem Does.write (s : State) (x : FrameMap) (v : Tab View) (y : Tab Volume) (p : Tab Pin)
    (hm : w.map = true ∨ x = s.map) (hv : w.views = true ∨ v = s.views) (hy : w.volumes = true ∨ y = s.volumes)
    (hp : w.pins = true ∨ p = s.store.pins) :
    Does w s { s with map := x, views := v, volumes := y, store := { s.store with pins := p } } := by
  have pick : ∀ {b : Bool} {q : Prop}, b = true ∨ q → b = false → q := fun h hf => h.resolve_left (by rw [hf]; decide)
  exact ⟨⟨pick hm, pick hv, pick hy, pick hp, fun _ => rfl, fun _ => SettingsStand.ofPort rfl, fun _ => FlagsAdded.refl _ _,
    fun _ => rfl, fun c _ => ChanStands.refl s c, fun _ _ => rfl, fun m _ => LinkStands.refl s m, rfl, List.prefix_rfl⟩,
    rfl, List.prefix_rfl⟩

theorem Does.ofMap (s : State) (x : FrameMap) (h : w.map = true) : Does w s { s with map := x } :=
  Does.write s x s.views s.volumes s.store.pins (.inl h) (.inr rfl) (.inr rfl) (.inr rfl)

theorem Does.setClip (s : State) (h : Nat) (c : Clip) (hw : w.map = true) : Does w s (s.setClip h c) := Does.ofMap s _ hw

theorem Does.setView (s : State) (v : Nat) (x : View) (h : w.views = true) : Does w s (s.setView v x) :=
  Does.write s s.map _ s.volumes s.store.pins (.inr rfl) (.inl h) (.inr rfl) (.inr rfl)

theorem Does.setVolume (s : State) (v : Nat) (x : Volume) (h : w.volumes = true) : Does w s (s.setVolume v x) :=
  Does.write s s.map s.views _ s.store.pins (.inr rfl) (.inr rfl) (.inl h) (.inr rfl)

theorem Does.ofPins (s : State) (p : Tab Pin) (h : w.pins = true) : Does w s { s with store := { s.store with pins := p } } :=
  Does.write s s.map s.views s.volumes p (.inr rfl) (.inr rfl) (.inr rfl) (.inl h)

/-- A channel record is written: a touched one, or so that its course stands. -/
theorem Does.modChan (s : State) (c : Nat) (f : Channel → Channel) (h : w.chans c ∨ ChanStands s (s.modChan c f) c) :
    Does w s (s.modChan c f) := by
  refine ⟨⟨fun _ => rfl, fun _ => rfl, fun _ => rfl, fun _ => rfl, fun _ => rfl, fun _ => SettingsStand.ofPort rfl,
    fun _ => FlagsAdded.refl _ _, fun _ => rfl, fun i hi => ?_, fun _ _ => rfl, fun m _ => LinkStands.refl s m, rfl, List.prefix_rfl⟩,
    rfl, List.prefix_rfl⟩
  by_cases e : i = c
  · subst e; exact h.resolve_left hi
  · have : (s.modChan c f).chan i = s.chan i := by rw [State.chan_modChan, if_neg e]
    unfold ChanStands
    rw [this]
    exact ChanStands.refl s i

/-- The start waits are written. -/
theorem Does.ofWaits (s : State) (x : Tab (Option Nat)) (h : w.time = true) :
    Does w s { s with time := { s.time with waits := x } } :=
  ⟨⟨fun _ => rfl, fun _ => rfl, fun _ => rfl, fun _ => rfl, fun hf => absurd (h.symm.trans hf) (by decide),
    fun _ => SettingsStand.ofPort rfl, fun _ => FlagsAdded.refl _ _, fun _ => rfl, fun c _ => ChanStands.refl s c, fun _ _ => rfl,
    fun m _ => LinkStands.refl s m, rfl, List.prefix_rfl⟩, rfl, List.prefix_rfl⟩

theorem Frame.mono {v : Touched} {s t : State} (f : Frame w s t)
    (hb : w.map ≤ v.map ∧ w.views ≤ v.views ∧ w.volumes ≤ v.volumes ∧ w.pins ≤ v.pins ∧ w.time ≤ v.time ∧
      w.settings ≤ v.settings ∧ w.partFlags ≤ v.partFlags ∧ w.draws ≤ v.draws)
    (hc : ∀ c, w.chans c → v.chans c) (hr : ∀ c, w.rings c → v.rings c) (hl : ∀ m, w.links m → v.links m) : Frame v s t := by
  obtain ⟨h1, h2, h3, h4, h5, h6, h7, h8⟩ := hb
  have low : ∀ {a b : Bool}, a ≤ b → b = false → a = false := by decide
  exact ⟨fun h => f.map (low h1 h), fun h => f.views (low h2 h), fun h => f.volumes (low h3 h), fun h => f.pins (low h4 h),
    fun h => f.time (low h5 h), fun h => f.settings (low h6 h), fun h => f.partFlags (low h7 h), fun h => f.draws (low h8 h),
    fun c h => f.chans c (fun x => h (hc c x)), fun c h => f.rings c (fun x => h (hr c x)),
    fun m h => f.links m (fun x => h (hl m x)), f.pending, f.out⟩

theorem Does.mono {v : Touched} {s t : State} (f : Does w s t)
    (hb : w.map ≤ v.map ∧ w.views ≤ v.views ∧ w.volumes ≤ v.volumes ∧ w.pins ≤ v.pins ∧ w.time ≤ v.time ∧
      w.settings ≤ v.settings ∧ w.partFlags ≤ v.partFlags ∧ w.draws ≤ v.draws := by simp [Touched.binding])
    (hc : ∀ c, w.chans c → v.chans c := by exact fun _ h => h) (hr : ∀ c, w.rings c → v.rings c := by exact fun _ h => h)
    (hl : ∀ m, w.links m → v.links m := by exact fun _ h => h) : Does v s t := ⟨f.frame.mono hb hc hr hl, f.now, f.handed⟩

/-! ## REVOKEs -/

/-- A REVOKE is decided: REVISED is all that the frame shows of it, where it is set. -/
theorem decideRevoke_does (s : State) (c : Nat) (r : Word32) (b : Bool) : Does w s (decideRevoke s c r b) := by
  unfold decideRevoke
  refine (Follows.modRing s c _ (by rfl)).does.trans (Does.modChan _ c _ (.inr ?_))
  unfold ChanStands
  rw [State.chan_modChan, if_pos rfl]
  refine ⟨rfl, .inl rfl, flagIf b ChanFlag.revised, ?_⟩
  cases b <;> rfl

theorem revokeFrom_does (s : State) (c : Nat) (r : Word32) (b : Bool) : Does w s (revokeFrom s c r b) :=
  (decideRevoke_does s c r b).ite (Does.refl s)

end

/-! ## The freeing of a clip -/

theorem lapsePins_does {w : Touched} (s : State) (h : Nat) (hw : w.pins = true) : Does w s (lapsePins s h) := Does.ofPins s _ hw

theorem freeClip_does {w : Touched} (s : State) (h : Nat) (hm : w.map = true) (hv : w.volumes = true) (hp : w.pins = true) :
    Does w s (freeClip s h) := by
  have rest : ∀ (t : State) (x : FrameMap), Does w t
      (countClip (State.setClip { t with map := x } h Clip.initial) (s.clip h).volume (fun n => n - 1)) := fun t x =>
    ((Does.ofMap t x hm).trans (Does.setClip _ _ _ hm)).trans (Does.setVolume _ _ _ hv)
  exact (((orphanWhere_follows s _).does).trans (lapsePins_does _ h hp)).trans (rest _ _)

theorem freeClip_clip (s : State) (h k : Nat) : (freeClip s h).clip k = if k = h then Clip.initial else s.clip k := by
  unfold freeClip
  dsimp only
  rw [countClip_clip, State.clip_setClip]
  rfl

theorem freeClip_volume (s : State) (h v : Nat) : (freeClip s h).volume v =
    if v = (s.clip h).volume then { s.volume v with clipCount := (s.volume v).clipCount - 1 } else s.volume v := by
  unfold freeClip
  exact countClip_volume _ _ _ _

/-! ## The forced unbinding of a channel -/

theorem endCue_does {w : Touched} (s : State) (c : Nat) (r : Result) (h : w.chans c) : Does w s (endCue s c r) := by
  unfold endCue
  split
  · exact (Does.reply _ _ _ _).trans (Does.modChan _ _ _ (.inl h))
  · exact Does.refl s

theorem endStart_does {w : Touched} (s : State) (c : Nat) (r : Result) (h : w.chans c) (ht : w.time = true) :
    Does w s (endStart s c r) := by
  unfold endStart
  split
  · exact ((Does.reply _ _ _ _).trans (Does.ofWaits _ _ ht)).trans (Does.modChan _ _ _ (.inl h))
  · exact Does.refl s

theorem endCourse_does {w : Touched} (s : State) (c : Nat) (r : Result) (h : w.chans c) : Does w s (endCourse s c r) := by
  unfold endCourse
  split
  · exact (Does.reply _ _ _ _).trans (Does.modChan _ _ _ (.inl h))
  · exact Does.refl s

theorem endWaiting_does {w : Touched} (s : State) (c : Nat) (r : Result) (h : w.chans c) (ht : w.time = true) :
    Does w s (endWaiting s c r) :=
  ((endCue_does s c r h).trans (endStart_does _ c r h ht)).trans (endCourse_does _ c r h)

/-- The answers a channel owes are no part of its binding. -/
theorem endWaiting_clip (s : State) (c : Nat) (r : Result) :
    (endWaiting s c r).map = s.map ∧ ((endWaiting s c r).chan c).clip = (s.chan c).clip := by
  have one : ∀ (s t : State) (f : Channel → Channel), t.map = s.map → t.chan c = s.chan c → (∀ ch, (f ch).clip = ch.clip) →
      (t.modChan c f).map = s.map ∧ ((t.modChan c f).chan c).clip = (s.chan c).clip := fun s t f hm hc hf =>
    ⟨hm, by rw [State.chan_modChan, if_pos rfl, hf, hc]⟩
  have cue : ∀ s, (endCue s c r).map = s.map ∧ ((endCue s c r).chan c).clip = (s.chan c).clip := fun s => by
    unfold endCue
    split
    · exact one s _ _ rfl rfl (fun _ => rfl)
    · exact ⟨rfl, rfl⟩
  have start : ∀ s, (endStart s c r).map = s.map ∧ ((endStart s c r).chan c).clip = (s.chan c).clip := fun s => by
    unfold endStart
    split
    · exact one s _ _ rfl rfl (fun _ => rfl)
    · exact ⟨rfl, rfl⟩
  have course : ∀ s, (endCourse s c r).map = s.map ∧ ((endCourse s c r).chan c).clip = (s.chan c).clip := fun s => by
    unfold endCourse
    split
    · exact one s _ _ rfl rfl (fun _ => rfl)
    · exact ⟨rfl, rfl⟩
  unfold endWaiting
  obtain ⟨h1, g1⟩ := cue s
  obtain ⟨h2, g2⟩ := start (endCue s c r)
  obtain ⟨h3, g3⟩ := course (endStart (endCue s c r) c r)
  exact ⟨h3.trans (h2.trans h1), g3.trans (g2.trans g1)⟩

/-- A channel that a forced unbinding has left: IDLE, unbound, with WITHDRAWN (R67). -/
def Withdrawn (ch : Channel) : Prop :=
  ch.state = .idle ∧ ch.clip = 0 ∧ ch.view = none ∧ ch.pos = 0 ∧ ch.flags &&& ChanFlag.withdrawn ≠ 0

/-- A set flag outlasts what only adds flags. -/
theorem FlagsAdded.bit {n : Nat} {mask a b f : BitVec n} (h : FlagsAdded mask a b) (ha : a &&& f ≠ 0) : b &&& f ≠ 0 := by
  obtain ⟨x, rfl⟩ := h
  intro hz
  refine ha (BitVec.eq_of_getElem_eq fun i hi => ?_)
  have := congrArg (fun v => v[i]) hz
  simp only [BitVec.getElem_and, BitVec.getElem_or] at this ⊢
  cases hf : f[i] <;> simp_all

theorem Withdrawn.stands {s t : State} {c : Nat} (h : Withdrawn (s.chan c)) (hs : ChanStands s t c) : Withdrawn (t.chan c) := by
  obtain ⟨h1, h2, h3, h4, h5⟩ := h
  obtain ⟨hk, hst, hf⟩ := hs
  refine ⟨?_, ?_, ?_, ?_, hf.bit h5⟩
  · rcases hst with e | ⟨e, -⟩
    · exact e.trans h1
    · rw [h1] at e; cases e
  · exact (congrArg (fun ch => ch.clip) hk).trans h2
  · exact (congrArg (fun ch => ch.view) hk).trans h3
  · exact (congrArg (fun ch => ch.pos) hk).trans h4

theorem forceUnbind_does (s : State) (c : Nat) : Does (Touched.binding (· = c) (fun _ => False)) s (forceUnbind s c) := by
  have view : ∀ (s : State) (v : Option Nat), Does (Touched.binding (· = c) (fun _ => False)) s (releaseViewOpt s v) := by
    intro s v
    cases v with
    | none => exact Does.refl s
    | some v => exact Does.setView _ _ _ rfl
  unfold forceUnbind
  dsimp only
  refine (endWaiting_does s c .aborted rfl rfl).trans ?_
  generalize endWaiting s c .aborted = s1
  exact (((((revokeFrom_does _ _ _ _).ite (Does.refl s1)).trans (releaseList_follows _ _).does).trans (view _ _)).trans
    (Does.setClip _ _ _ rfl)).trans (Does.modChan _ _ _ (.inl rfl))

theorem forceUnbind_withdrawn (s : State) (c : Nat) : Withdrawn ((forceUnbind s c).chan c) := by
  unfold forceUnbind
  dsimp only
  rw [State.chan_modChan, if_pos rfl]
  refine ⟨rfl, rfl, rfl, rfl, ?_⟩
  exact (by decide : ∀ f : BitVec 7, (f ||| ChanFlag.withdrawn) &&& ChanFlag.withdrawn ≠ 0) _

/-- A forced unbinding writes no clip but the channel's own. -/
theorem forceUnbind_clip (s : State) (c k : Nat) (h : k ≠ (s.chan c).clip) : (forceUnbind s c).clip k = s.clip k := by
  obtain ⟨hm, hc⟩ := endWaiting_clip s c .aborted
  unfold forceUnbind
  dsimp only
  generalize endWaiting s c .aborted = s1 at hm hc
  have view : ∀ (s : State) (v : Option Nat), (releaseViewOpt s v).map = s.map := by
    intro s v
    cases v <;> rfl
  have list : ∀ s2 : State, s2.map = s1.map → (releaseViewOpt (releaseList s2 c) (s1.chan c).view).map = s.map := fun s2 h2 =>
    (((view _ _).trans (releaseList_follows s2 c).map).trans h2).trans hm
  refine ((State.clip_setClip _ _ _ _).trans (if_neg (hc ▸ h))).trans ?_
  unfold State.clip
  rw [list]
  split
  · exact (revokeFrom_acts _ _ _ _).map
  · rfl

end Sys2Proof.Machine

/-! SUPPORT. CLIP_RETIRE (R20, R21). -/

namespace Sys2Proof.Machine

/-- Several channels of one clip are unbound, one after the other. -/
theorem forceUnbind_each {h : Nat} (l : List Nat) (hd : l.Nodup) (s : State) (hb : ∀ c ∈ l, (s.chan c).clip = h) :
    Does (Touched.binding (· ∈ l) (fun _ => False)) s (l.foldl forceUnbind s) ∧
      (∀ k, k ≠ h → (l.foldl forceUnbind s).clip k = s.clip k) ∧ ∀ c ∈ l, Withdrawn ((l.foldl forceUnbind s).chan c) := by
  induction l generalizing s with
  | nil => exact ⟨Does.refl s, fun _ _ => rfl, nofun⟩
  | cons c l ih =>
    obtain ⟨hcl, hd⟩ := List.nodup_cons.1 hd
    have here := forceUnbind_does s c
    have stands : ∀ i, i ≠ c → ChanStands s (forceUnbind s c) i := fun i hi => here.frame.chans i hi
    obtain ⟨later, clips, withdrawn⟩ := ih hd (forceUnbind s c) (fun i hi => by
      rw [← hb i (List.mem_cons_of_mem _ hi)]
      exact congrArg (fun ch => ch.clip) (stands i (fun e => hcl (e ▸ hi))).1)
    refine ⟨(here.mono (hc := fun i e => e ▸ List.mem_cons_self ..)).trans (later.mono (hc := fun i => List.mem_cons_of_mem _)),
      fun k hk => (clips k hk).trans (forceUnbind_clip s c k ?_), fun i hi => ?_⟩
    · rw [hb c (List.mem_cons_self ..)]; exact hk
    · rcases List.mem_cons.1 hi with rfl | hi
      · exact (forceUnbind_withdrawn s i).stands (later.frame.chans i hcl)
      · exact withdrawn i hi

theorem boundChannels_nodup (s : State) (h : Nat) : (boundChannels s h).Nodup := List.nodup_range.filter _

theorem mem_boundChannels {s : State} {h c : Nat} : c ∈ boundChannels s h ↔ c < 64 ∧ (s.chan c).clip = h ∧ h ≠ 0 := by
  unfold boundChannels boundTo
  rw [List.mem_filter, List.mem_range]
  simp [Config.channels]

theorem boundChannels_length (s : State) {h : Nat} (hh : h ≠ 0) : (boundChannels s h).length = bindsOf s h := by
  have hb : (h != 0) = true := by simpa using hh
  unfold boundChannels bindsOf boundTo
  simp only [hb, Bool.and_true]

/-- What the event of an act that is answered OK leaves: the act's frame, its answer, and the map, volumes and channels it left. -/
structure Replied (w : Touched) (s y t : State) (q : Ticket) (is : List Item) : Prop where
  frame : Frame w s t
  answered : Answered s t q.kind q.tag .ok 0 is
  clip : ∀ k, t.clip k = y.clip k
  volume : ∀ v, t.volume v = y.volume v
  chans : ∀ c, ChanStands y t c

theorem Does.replied {w : Touched} {s y x t : State} {q : Ticket} {is : List Item} (d : Does w s y) (hx : x = y.reply q .ok is)
    (e : Ends x t) : Replied w s y t q is := by
  subst hx
  exact ⟨(d.trans (Does.reply y q .ok is)).frame.ends d.now e, e.answers d.frame.out (handed_reply _ _ _ _), e.clip, e.volume,
    e.chanStands⟩

/-- A clip withdrawn: its channels unbound, then its handle freed (R21). -/
theorem withdrawClip_replied {s x t : State} {h : Nat} {q : Ticket} (hh : h ≠ 0) (hx : x = withdrawClip s h q) (e : Ends x t) :
    ∃ u, Replied (Touched.binding (fun c => (s.chan c).clip = h) (fun _ => False)) s (freeClip u h) t q [item1 1, item1 (bindsOf s h)] ∧
      (∀ k, k ≠ h → u.clip k = s.clip k) ∧ ∀ c, c < 64 → (s.chan c).clip = h → Withdrawn ((freeClip u h).chan c) := by
  obtain ⟨unbound, clips, withdrawn⟩ := forceUnbind_each _ (boundChannels_nodup s h) s (fun c hc => (mem_boundChannels.1 hc).2.1)
  unfold withdrawClip at hx
  dsimp only at hx
  rw [boundChannels_length _ hh] at hx
  generalize List.foldl forceUnbind s _ = u at hx unbound clips withdrawn
  have does := unbound.mono (v := Touched.binding (fun c => (s.chan c).clip = h) (fun _ => False))
    (hc := fun c hc => (mem_boundChannels.1 hc).2.1)
  refine ⟨u, (does.trans (freeClip_does u h rfl rfl rfl)).replied hx e, clips, fun c hc hb => ?_⟩
  have still := freeClip_does (w := { map := true, volumes := true, pins := true }) u h rfl rfl rfl
  exact (withdrawn c (mem_boundChannels.2 ⟨hc, hb, hh⟩)).stands (still.frame.chans c id)

/-- An unbound LIVE clip retired is freed at once, another becomes RETIRING (R20). -/
theorem retireClip_replied {s x t : State} {h : Nat} {q : Ticket} (hx : x = retireClip s h q) (e : Ends x t) :
    ((s.clip h).state = .live ∧ (s.clip h).bindCount = 0 →
      Replied { map := true, volumes := true, pins := true } s (freeClip s h) t q [item1 1, item1 0]) ∧
    (¬((s.clip h).state = .live ∧ (s.clip h).bindCount = 0) →
      Replied { map := true } s (s.setClip h { s.clip h with state := .retiring }) t q [item1 0, item1 (s.clip h).bindCount]) := by
  unfold retireClip at hx
  dsimp only at hx
  refine ⟨fun hf => ?_, fun hf => ?_⟩
  · rw [if_pos hf] at hx
    exact (freeClip_does s h rfl rfl rfl).replied hx e
  · rw [if_neg hf] at hx
    exact (Does.setClip s _ _ rfl).replied hx e

/-- A request's act begins once it is taken, which writes the port alone. -/
theorem Replied.taken {w : Touched} {s y t : State} {q : Ticket} {is : List Item} (r : Replied w (beginTake s) y t q is) :
    Replied w s y t q is :=
  ⟨((beginTake_frame s).of_empty w).trans r.frame, r.answered, r.clip, r.volume, r.chans⟩

/-- Settles O30: each bound channel is unbound in turn (`forceUnbind_each`), and the freeing writes the clip's own record. -/
theorem clipRetireFreesOrRetires : Obligations.ClipRetireFreesOrRetires := by
  intro s tag a hoff h1 h2 hst
  have hb : badClip (beginTake s) a.clip = false := badClip_eq_false.2 ⟨h1, h2, hst⟩
  refine ⟨_, exec_offered hoff, ?_⟩
  have act : ownerAct (.clipRetire a) (ticketOf s (Request.clipRetire a).kind tag) (beginTake s) =
      if a.withdraw then withdrawClip (beginTake s) a.clip (ticketOf s 21 tag)
      else retireClip (beginTake s) a.clip (ticketOf s 21 tag) := if_neg (by rw [hb]; decide)
  generalize takeBase s (.clipRetire a) = s0
  generalize ownerAct (.clipRetire a) (ticketOf s (Request.clipRetire a).kind tag) (beginTake s) = x at act ⊢
  have e := endEvent_ends s0 x
  generalize endEvent s0 x = t at e
  cases hw : a.withdraw with
  | true =>
    rw [hw, if_pos rfl] at act
    obtain ⟨u, replied, clips, withdrawn⟩ := withdrawClip_replied (Nat.ne_of_gt h1) act e
    have r := replied.taken
    refine ⟨fun k hk => ?_, nofun, nofun, fun _ => ⟨?_, r.answered, r.frame, fun c hc hbound => ?_⟩⟩
    · rw [r.clip, freeClip_clip, if_neg hk]; exact clips k hk
    · rw [r.clip, freeClip_clip, if_pos rfl]
    · exact (withdrawn c hc hbound).stands (r.chans c)
  | false =>
    rw [hw, if_neg (by decide)] at act
    obtain ⟨frees, retires⟩ := retireClip_replied act e
    by_cases hfree : (s.clip a.clip).state = .live ∧ (s.clip a.clip).bindCount = 0
    · have r := (frees hfree).taken
      refine ⟨fun k hk => ?_, fun _ _ _ => ⟨?_, r.answered, r.frame, ?_⟩, fun _ h => absurd hfree h, nofun⟩
      · rw [r.clip, freeClip_clip, if_neg hk]; rfl
      · rw [r.clip, freeClip_clip, if_pos rfl]
      · rw [r.volume]
        exact congrArg Volume.clipCount ((freeClip_volume (beginTake s) a.clip _).trans (if_pos rfl))
    · have r := (retires hfree).taken
      refine ⟨fun k hk => ?_, fun _ hl hz => absurd ⟨hl, hz⟩ hfree, fun _ _ => ⟨?_, r.answered, r.frame⟩, nofun⟩
      · rw [r.clip, State.clip_setClip, if_neg hk]; rfl
      · rw [r.clip, State.clip_setClip, if_pos rfl]; rfl

end Sys2Proof.Machine

/-! SUPPORT. Pins: what covering, uncovering and truncating leave of the state and of the pins (R118 to R120). -/

namespace Sys2Proof.Machine

/-! ## What pins leave alone -/

/-- Each entry record of `t` is one of `s` by its key and orphan mark, or was made for a frame of the map. -/
structure KeysFollow (s t : State) : Prop where
  wf : twf none t.store.entries = true
  old : ∀ id e', t.entry id = some e' →
    (∃ e, s.entry id = some e ∧ e'.key = e.key ∧ e'.orphan = e.orphan) ∨ SerialFound s e'.key.serial

theorem KeysFollow.trans {s t u : State} (hm : t.map = s.map) (a : KeysFollow s t) (b : KeysFollow t u) : KeysFollow s u where
  wf := b.wf
  old id e' h := by
    rcases b.old id e' h with ⟨e, he, hk, ho⟩ | hf
    · rcases a.old id e he with ⟨e0, he0, hk0, ho0⟩ | hf
      · exact .inl ⟨e0, he0, hk.trans hk0, ho.trans ho0⟩
      · exact .inr (hk ▸ hf)
    · exact .inr ((SerialFound.congr hm _).1 hf)

theorem EntriesFollow.keys {s t : State} (a : EntriesFollow s t) : KeysFollow s t where
  wf := a.wf
  old id e' h := (a.old id e' h).imp (fun ⟨e, he, hm⟩ => ⟨e, he, Entry.key_of_mark hm, Entry.orphan_of_mark hm⟩) (·.2)

theorem KeysFollow.modEntry {s : State} {id : Nat} {f : Entry → Entry} (hw : twf none s.store.entries = true)
    (hk : ∀ e, (f e).key = e.key) (ho : ∀ e, (f e).orphan = e.orphan) : KeysFollow s (s.modEntry id f) where
  wf := twf_tset none id _ hw
  old i e' hi := by
    rw [State.modEntry, State.entry_setEntry] at hi
    split at hi
    · rename_i e; subst e
      obtain ⟨e, he, rfl⟩ := Option.map_eq_some_iff.1 hi
      exact .inl ⟨e, he, hk e, ho e⟩
    · exact .inl ⟨e', hi, rfl, rfl⟩

/-- What the work on pins leaves alone: all but the store, the read scheduler, statuses of list entries and `listStands`. -/
structure Handles (s t : State) : Prop where
  beyond : t.beyond = s.beyond
  handed : s.handed <+: t.handed
  chans : ∀ c, (t.chan c).still = (s.chan c).still
  rings : ∀ c, t.ring c = s.ring c
  keys : twf none s.store.entries = true → KeysFollow s t

theorem Handles.map {s t : State} (a : Handles s t) : t.map = s.map := show t.beyond.map = s.beyond.map by rw [a.beyond]

theorem Handles.port {s t : State} (a : Handles s t) : t.port = s.port := show t.beyond.port = s.beyond.port by rw [a.beyond]

theorem Handles.refl (s : State) : Handles s s :=
  ⟨rfl, List.prefix_rfl, fun _ => rfl, fun _ => rfl, fun hw => (EntriesFollow.refl hw rfl).keys⟩

theorem Handles.trans {s t u : State} (a : Handles s t) (b : Handles t u) : Handles s u :=
  ⟨b.beyond.trans a.beyond, a.handed.trans b.handed, fun c => (b.chans c).trans (a.chans c),
    fun c => (b.rings c).trans (a.rings c), fun hw => (a.keys hw).trans a.map (b.keys (a.keys hw).wf)⟩

theorem Acts.handles {s t : State} (a : Acts (fun _ => False) s t) : Handles s t :=
  ⟨a.beyond, a.handed, fun c => a.chans c id, fun c => a.rings c id, fun hw => (a.entries hw).keys⟩

theorem Handles.foldl {α : Type} {f : State → α → State} {l : List α} (h : ∀ s, ∀ a ∈ l, Handles s (f s a)) (s : State) :
    Handles s (l.foldl f s) := by
  induction l generalizing s with
  | nil => exact Handles.refl s
  | cons a l ih => exact (h s a (List.mem_cons_self ..)).trans (ih (fun s b hb => h s b (List.mem_cons_of_mem _ hb)) _)

theorem Handles.setPin (s : State) (p : Nat) (q : Pin) : Handles s (s.setPin p q) :=
  ⟨rfl, List.prefix_rfl, fun _ => rfl, fun _ => rfl, fun hw => ⟨hw, fun _ e' h => .inl ⟨e', h, rfl, rfl⟩⟩⟩

theorem Handles.modEntry (s : State) (id : Nat) (f : Entry → Entry)
    (hk : ∀ e, (f e).key = e.key := by exact fun _ => rfl) (ho : ∀ e, (f e).orphan = e.orphan := by exact fun _ => rfl) : Handles s (s.modEntry id f) :=
  ⟨rfl, List.prefix_rfl, fun _ => rfl, fun _ => rfl, fun hw => KeysFollow.modEntry hw hk ho⟩

theorem addPin_handles (s : State) (id : Nat) : Handles s (addPin s id) :=
  (Handles.modEntry s id _).trans (overloadJudged_acts _).handles

theorem releasePin_handles (s : State) (id : Nat) : Handles s (releasePin s id) :=
  ((Handles.modEntry s id _).trans (settlePlace_acts _ _).handles).trans (overloadJudged_acts _).handles

theorem releasePins_handles (s : State) (l : List (Nat × Nat)) : Handles s (l.foldl (fun s x => releasePin s x.2) s) :=
  Handles.foldl (fun s x _ => releasePin_handles s x.2) s

theorem uncover_handles (s : State) (p : Nat) (f : Nat → Bool) : Handles s (uncover s p f) :=
  (Handles.setPin s p _).trans (releasePins_handles _ _)

/-- The frame a pin wants is PRESENT (R119). -/
theorem pinWant_isSome {s : State} {clip view f : Nat} :
    (pinWant s clip view f).isSome = true ↔ ∃ n x a z, lookup s clip f = .present n x a z := by
  unfold pinWant
  cases lookup s clip f <;> simp

theorem pinWant_found {s : State} {clip view f : Nat} {k : Key} {l : Location} {n : Nat}
    (h : pinWant s clip view f = some (k, l, n)) : SerialFound s k.serial := by
  unfold pinWant at h
  split at h
  · rename_i hl
    cases h
    exact ⟨_, _, _, _, _, hl⟩
  · cases h

theorem coverFrame_handles (s : State) (p f : Nat) : Handles s (coverFrame s p f) := by
  unfold coverFrame
  dsimp only
  split
  · exact Handles.refl s
  · rename_i hw
    exact ((findOrAdmit_acts _ _ _ _ (pinWant_found hw)).handles.trans (addPin_handles _ _)).trans (Handles.setPin _ _ _)

theorem coverFrames_handles (s : State) (p : Nat) (fs : List Nat) : Handles s (coverFrames s p fs) :=
  Handles.foldl (fun s f _ => coverFrame_handles s p f) s

theorem truncatePin_handles (p n : Nat) (s : State) : Handles s (truncatePin p n s) := by
  induction n generalizing s with
  | zero => exact Handles.refl s
  | succ n ih =>
    unfold truncatePin
    split
    · exact Handles.refl s
    · exact ((Handles.setPin _ _ _).trans (uncover_handles _ _ _)).trans (ih _)

theorem refillPin_handles (g : Nat) (s : State) (p : Nat) : Handles s (refillPin g s p) :=
  ((uncover_handles _ _ _).trans (coverFrames_handles _ _ _)).trans (truncatePin_handles _ _ _)

theorem refillPins_handles (s : State) (h g : Nat) : Handles s (refillPins s h g) :=
  Handles.foldl (fun s p _ => by
    split
    · exact refillPin_handles _ _ _
    · exact Handles.refl s) s

/-! ## What pins touch -/

section
variable {w : Touched} (hw : w.pins = true)
include hw

theorem setPin_does (s : State) (p : Nat) (q : Pin) : Does w s (s.setPin p q) := Does.ofPins s _ hw

theorem uncover_does (s : State) (p : Nat) (f : Nat → Bool) : Does w s (uncover s p f) :=
  (setPin_does hw s p _).trans (Does.foldl (fun s x _ => (releasePin_follows s x.2).does) _)

theorem coverFrame_does (s : State) (p f : Nat) : Does w s (coverFrame s p f) := by
  unfold coverFrame
  dsimp only
  split
  · exact Does.refl s
  · exact ((findOrAdmit_follows _ _ _ _).does.trans (addPin_follows _ _).does).trans (setPin_does hw _ _ _)

theorem truncatePin_does (p n : Nat) (s : State) : Does w s (truncatePin p n s) := by
  induction n generalizing s with
  | zero => exact Does.refl s
  | succ n ih =>
    unfold truncatePin
    split
    · exact Does.refl s
    · exact ((setPin_does hw _ _ _).trans (uncover_does hw _ _ _)).trans (ih _)

theorem refillPins_does (s : State) (h g : Nat) : Does w s (refillPins s h g) :=
  Does.foldl (fun s p _ => by
    split
    · exact ((uncover_does hw _ _ _).trans (Does.foldl (fun s f _ => coverFrame_does hw s p f) _)).trans (truncatePin_does hw _ _ _)
    · exact Does.refl s) s

end

/-! ## The pins after -/

theorem Follows.pin {s t : State} (f : Follows s t) (p : Nat) : t.pin p = s.pin p := by unfold State.pin; rw [f.pins]

theorem uncover_pin (s : State) (p : Nat) (f : Nat → Bool) (i : Nat) : (uncover s p f).pin i =
    if i = p then { s.pin p with covered := (s.pin p).covered.filter (fun x => !f x.1) } else s.pin i := by
  have released := Follows.foldl (fun s (x : Nat × Nat) => releasePin s x.2) (fun s x => releasePin_follows s x.2)
    ((s.pin p).covered.filter (fun x => f x.1))
    (s.setPin p { s.pin p with covered := (s.pin p).covered.filter (fun x => !f x.1) })
  exact (released.pin i).trans (State.pin_setPin _ _ _ _)

theorem coverFrame_none {s : State} {p f : Nat} (h : pinWant s (s.pin p).clip (s.pin p).view f = none) : coverFrame s p f = s := by
  unfold coverFrame
  dsimp only
  rw [h]

/-- A pin that covers one frame more. -/
def Pin.withFrame (q : Pin) (f id : Nat) : Pin := { q with covered := insertBy (fun a b => decide (a.1 < b.1)) (f, id) q.covered }

theorem Pin.mem_withFrame {q : Pin} {f id : Nat} {x : Nat × Nat} : x ∈ (q.withFrame f id).covered ↔ x = (f, id) ∨ x ∈ q.covered :=
  (insertBy_perm _ _ _).mem_iff.trans List.mem_cons

theorem coverFrame_pin {s : State} {p f : Nat} {k : Key} {l : Location} {n : Nat}
    (h : pinWant s (s.pin p).clip (s.pin p).view f = some (k, l, n)) (i : Nat) : (coverFrame s p f).pin i =
      if i = p then (s.pin p).withFrame f (findOrAdmit s k (s.clip (s.pin p).clip).volume l).2 else s.pin i := by
  have admitted := (findOrAdmit_follows s k (s.clip (s.pin p).clip).volume l).trans (addPin_follows _
    (findOrAdmit s k (s.clip (s.pin p).clip).volume l).2)
  unfold coverFrame
  dsimp only
  rw [h]
  dsimp only
  rw [State.pin_setPin, admitted.pin]
  rfl

/-- A pin without what it covers. -/
def Pin.range (q : Pin) : Pin := { q with covered := [] }

/-- What covering a frame leaves of the pins: the frame is covered where it is PRESENT, all else as before. -/
theorem coverFrame_covers (s : State) (p f : Nat) :
    (∀ i, i ≠ p → (coverFrame s p f).pin i = s.pin i) ∧ ((coverFrame s p f).pin p).range = (s.pin p).range ∧
      (∀ x ∈ (s.pin p).covered, x ∈ ((coverFrame s p f).pin p).covered) ∧
      (∀ x ∈ ((coverFrame s p f).pin p).covered, x ∈ (s.pin p).covered ∨
        (x.1 = f ∧ ∃ n y a z, lookup s (s.pin p).clip f = .present n y a z)) ∧
      ((∃ n y a z, lookup s (s.pin p).clip f = .present n y a z) → ∃ id, (f, id) ∈ ((coverFrame s p f).pin p).covered) := by
  cases h : pinWant s (s.pin p).clip (s.pin p).view f with
  | none =>
    rw [coverFrame_none h]
    refine ⟨fun _ _ => rfl, rfl, fun _ h => h, fun _ h => .inl h, fun hp => ?_⟩
    rw [← pinWant_isSome (view := (s.pin p).view), h] at hp
    cases hp
  | some x =>
    obtain ⟨k, l, n⟩ := x
    have pin := coverFrame_pin h
    have hp : ∃ n y a z, lookup s (s.pin p).clip f = .present n y a z := by
      rw [← pinWant_isSome (view := (s.pin p).view), h]; rfl
    have mem : ∀ x, x ∈ ((coverFrame s p f).pin p).covered ↔
        x = (f, (findOrAdmit s k (s.clip (s.pin p).clip).volume l).2) ∨ x ∈ (s.pin p).covered := fun x => by
      rw [pin, if_pos rfl]
      exact Pin.mem_withFrame
    refine ⟨fun i hi => by rw [pin, if_neg hi], by rw [pin, if_pos rfl]; rfl, fun x hx => (mem x).2 (.inr hx), fun x hx => ?_,
      fun _ => ⟨_, (mem _).2 (.inl rfl)⟩⟩
    rcases (mem x).1 hx with rfl | hx
    · exact .inr ⟨rfl, hp⟩
    · exact .inl hx

/-- What covering several frames leaves of the pins. -/
theorem coverFrames_covers (p : Nat) (fs : List Nat) (s : State) :
    (∀ i, i ≠ p → (coverFrames s p fs).pin i = s.pin i) ∧ ((coverFrames s p fs).pin p).range = (s.pin p).range ∧
      (∀ x ∈ (s.pin p).covered, x ∈ ((coverFrames s p fs).pin p).covered) ∧
      (∀ x ∈ ((coverFrames s p fs).pin p).covered, x ∈ (s.pin p).covered ∨
        (x.1 ∈ fs ∧ ∃ n y a z, lookup s (s.pin p).clip x.1 = .present n y a z)) ∧
      ∀ f ∈ fs, (∃ n y a z, lookup s (s.pin p).clip f = .present n y a z) →
        ∃ id, (f, id) ∈ ((coverFrames s p fs).pin p).covered := by
  induction fs generalizing s with
  | nil => exact ⟨fun _ _ => rfl, rfl, fun _ h => h, fun _ h => .inl h, nofun⟩
  | cons f fs ih =>
    obtain ⟨o1, r1, k1, n1, c1⟩ := coverFrame_covers s p f
    obtain ⟨o2, r2, k2, n2, c2⟩ := ih (coverFrame s p f)
    have hclip : ((coverFrame s p f).pin p).clip = (s.pin p).clip := congrArg (fun q => q.clip) r1
    have hl := lookup_congr (coverFrame_handles s p f).map
    rw [hl, hclip] at n2 c2
    refine ⟨fun i hi => (o2 i hi).trans (o1 i hi), r2.trans r1, fun x hx => k2 x (k1 x hx), fun x hx => ?_, fun i hi hp => ?_⟩
    · rcases n2 x hx with h | ⟨hm, hp⟩
      · rcases n1 x h with h | ⟨hf, hp⟩
        · exact .inl h
        · exact .inr ⟨hf ▸ List.mem_cons_self .., by rw [hf]; exact hp⟩
      · exact .inr ⟨List.mem_cons_of_mem _ hm, hp⟩
    · rcases List.mem_cons.1 hi with rfl | hi
      · obtain ⟨id, h⟩ := c1 hp
        exact ⟨id, k2 _ h⟩
      · exact c2 i hi hp

/-- What a truncation from the top leaves of the pins, and where it stops (R120 step 3). -/
structure Truncated (s t : State) (p : Nat) : Prop where
  others : ∀ i, i ≠ p → t.pin i = s.pin i
  range : (t.pin p).range = { (s.pin p).range with
    held := (t.pin p).held, state := if (t.pin p).held < (s.pin p).held then .part else (s.pin p).state }
  held : (t.pin p).held ≤ (s.pin p).held
  kept : ∀ x, x ∈ (t.pin p).covered ↔ x ∈ (s.pin p).covered ∧
    ¬((s.pin p).first + (t.pin p).held ≤ x.1 ∧ x.1 < (s.pin p).first + (s.pin p).held)
  stops : pinLimits (pinnedPages t) (pinnedEntries t) = true ∨ (t.pin p).held = 0

theorem truncatePin_truncated (p n : Nat) (s : State) (h : (s.pin p).held = n) : Truncated s (truncatePin p n s) p := by
  have stay : ∀ s : State, (s.pin p).held ≤ (s.pin p).held ∧ (s.pin p).range = { (s.pin p).range with
      held := (s.pin p).held, state := if (s.pin p).held < (s.pin p).held then .part else (s.pin p).state } :=
    fun s => ⟨Nat.le_refl _, by rw [if_neg (Nat.lt_irrefl _)]; rfl⟩
  induction n generalizing s with
  | zero => exact ⟨fun _ _ => rfl, (stay s).2, (stay s).1, fun x => by constructor; (· exact fun hx => ⟨hx, by omega⟩); exact (·.1), .inr h⟩
  | succ n ih =>
    unfold truncatePin
    split
    · rename_i hl
      exact ⟨fun _ _ => rfl, (stay s).2, (stay s).1, fun x => by constructor; (· exact fun hx => ⟨hx, by omega⟩); exact (·.1), .inl hl⟩
    · dsimp only
      have pin := uncover_pin (s.setPin p { s.pin p with held := (s.pin p).held - 1, state := .part }) p
        (fun f => f == (s.pin p).first + (s.pin p).held - 1)
      generalize uncover (s.setPin p { s.pin p with held := (s.pin p).held - 1, state := .part }) p
        (fun f => f == (s.pin p).first + (s.pin p).held - 1) = u at pin
      simp only [State.pin_setPin, if_pos] at pin
      have here := pin p
      rw [if_pos rfl] at here
      have rest := ih u (by rw [here]; exact (by omega : (s.pin p).held - 1 = n))
      obtain ⟨others, range, held, kept, stops⟩ := rest
      generalize truncatePin p n u = t at others range held kept stops
      rw [here] at range held kept
      dsimp only at range held kept
      refine ⟨fun i hi => by rw [others i hi, pin, if_neg hi, if_neg hi], ?_, by omega, fun x => ?_, stops⟩
      · rw [range, ite_self, if_pos (show (t.pin p).held < (s.pin p).held by omega)]
        rfl
      · rw [kept, List.mem_filter]
        simp only [Bool.not_eq_true', beq_eq_false_iff_ne, ne_eq]
        constructor
        · rintro ⟨⟨hx, hne⟩, hn⟩
          exact ⟨hx, by omega⟩
        · rintro ⟨hx, hn⟩
          exact ⟨⟨hx, by omega⟩, by omega⟩

end Sys2Proof.Machine

/-! SUPPORT. The refill of the pins after a group write: what it covers, and that it ends within the limits or with nothing
held (R120). -/

namespace Sys2Proof.Machine

/-! ## The pinned totals -/

/-- The entry records in use, each once. -/
theorem entriesWhere_nodup {s : State} (hw : twf none s.store.entries = true) (f : Entry → Bool) : (entriesWhere s f).Nodup := by
  have sorted : ∀ t : Tab (Option Entry), tsorted t = true → t.Nodup := by
    intro t
    induction t with
    | nil => exact fun _ => List.nodup_nil
    | cons c t ih =>
      intro h
      obtain ⟨above, ht⟩ := tsorted_cons.1 h
      exact List.nodup_cons.2 ⟨fun hm => Nat.lt_irrefl _ (above c hm), ih ht⟩
  have inv : ∀ (c : Nat × Option Entry) (b : Nat × Entry), (match c.2 with
      | some e => if f e then some (c.1, e) else none
      | none => none) = some b → c = (b.1, some b.2) := by
    rintro ⟨i, o⟩ ⟨j, e⟩ h
    cases o with
    | none => cases h
    | some x =>
      dsimp only at h
      split at h
      · cases h; rfl
      · cases h
  unfold entriesWhere
  exact (sorted _ (twf_iff.1 hw).1).filterMap fun a a' b h h' => (inv a b h).trans (inv a' b h').symm

/-- The pinned entries of `u` are pinned in `a` under the same page need. -/
def PinnedWithin (a u : State) : Prop :=
  ∀ id e, u.entry id = some e → 0 < e.pins → ∃ e0, a.entry id = some e0 ∧ 0 < e0.pins ∧ e0.pageNeed = e.pageNeed

/-- Fewer pinned entries stay within the limits. -/
theorem pinLimits_within {a u : State} (ha : twf none a.store.entries = true) (hu : twf none u.store.entries = true)
    (h : PinnedWithin a u) (hl : pinLimits (pinnedPages a) (pinnedEntries a) = true) :
    pinLimits (pinnedPages u) (pinnedEntries u) = true := by
  have nodup : ((entriesWhere u (fun e => decide (e.pins > 0))).map (fun x => (x.1, x.2.pageNeed))).Nodup := by
    refine (entriesWhere_nodup hu _).map_on ?_
    rintro ⟨i, e⟩ hx ⟨j, e'⟩ hy heq
    cases (Prod.mk.inj heq).1
    have := ((mem_entriesWhere hu).1 hx).1.symm.trans ((mem_entriesWhere hu).1 hy).1
    cases this
    rfl
  have subset : (entriesWhere u (fun e => decide (e.pins > 0))).map (fun x => (x.1, x.2.pageNeed)) ⊆
      (entriesWhere a (fun e => decide (e.pins > 0))).map (fun x => (x.1, x.2.pageNeed)) := by
    intro y hy
    obtain ⟨⟨i, e⟩, hx, rfl⟩ := List.mem_map.1 hy
    obtain ⟨he, hp⟩ := (mem_entriesWhere hu).1 hx
    obtain ⟨e0, h0, hp0, hn⟩ := h i e he (of_decide_eq_true hp)
    exact List.mem_map.2 ⟨(i, e0), (mem_entriesWhere ha).2 ⟨h0, decide_eq_true hp0⟩, by rw [hn]⟩
  obtain ⟨l, perm, sub⟩ := List.subperm_of_subset nodup subset
  have pages : ∀ s : State, pinnedPages s =
      (((entriesWhere s (fun e => decide (e.pins > 0))).map (fun x => (x.1, x.2.pageNeed))).map Prod.snd).sum := fun s => by
    unfold pinnedPages
    rw [sumOf_eq_sum, List.map_map]
    rfl
  have entries : ∀ s : State, pinnedEntries s =
      ((entriesWhere s (fun e => decide (e.pins > 0))).map (fun x => (x.1, x.2.pageNeed))).length := fun s => by
    rw [List.length_map]; rfl
  have hp : pinnedPages u ≤ pinnedPages a := by
    rw [pages, pages, ← (perm.map Prod.snd).sum_eq]
    exact (sub.map Prod.snd).sum_le_sum (fun _ _ => Nat.zero_le _)
  have hn : pinnedEntries u ≤ pinnedEntries a := by
    rw [entries, entries, ← perm.length_eq]
    exact sub.length_le
  have := of_decide_eq_true hl
  exact decide_eq_true ⟨Nat.le_trans hp this.1, Nat.le_trans hn this.2⟩

theorem EntriesFollow.pinnedWithin {s t : State} (f : EntriesFollow s t) : PinnedWithin s t := fun id e he hp => by
  rcases f.old id e he with ⟨e0, h0, hm⟩ | ⟨h0, -⟩
  · exact ⟨e0, h0, by rw [← Entry.pins_of_mark hm]; exact hp, (Entry.pageNeed_of_mark hm).symm⟩
  · rw [h0] at hp; cases hp

/-! ## A bound on the pins of an entry -/

/-- An entry of `u` with more pins than `m` allows it is pinned in `a` under the same page need. -/
structure PinBound (a u : State) (m : Nat → Nat) : Prop where
  wf : twf none u.store.entries = true
  bound : ∀ id e, u.entry id = some e → m id < e.pins →
    ∃ e0, a.entry id = some e0 ∧ 0 < e0.pins ∧ e0.pageNeed = e.pageNeed

section
variable {a u v : State} {m m' : Nat → Nat}

theorem PinBound.refl (hw : twf none a.store.entries = true) : PinBound a a (fun _ => 0) := ⟨hw, fun _ e he hp => ⟨e, he, hp, rfl⟩⟩

theorem PinBound.mono (h : PinBound a u m) (hm : ∀ i, m i ≤ m' i) : PinBound a u m' :=
  ⟨h.wf, fun id e he hp => h.bound id e he (Nat.lt_of_le_of_lt (hm id) hp)⟩

theorem PinBound.congr (h : PinBound a u m) (he : v.store.entries = u.store.entries) : PinBound a v m := by
  have entry : v.entry = u.entry := by funext i; unfold State.entry; rw [he]
  exact ⟨he ▸ h.wf, fun id e hv => h.bound id e (entry ▸ hv)⟩

theorem PinBound.follow (h : PinBound a u m) (f : EntriesFollow u v) : PinBound a v m where
  wf := f.wf
  bound id e he hp := by
    rcases f.old id e he with ⟨e1, h1, hm⟩ | ⟨h0, -⟩
    · rw [Entry.pageNeed_of_mark hm]
      exact h.bound id e1 h1 (by rw [← Entry.pins_of_mark hm]; exact hp)
    · rw [h0] at hp; cases hp

/-- The pins of one entry change by as much as its bound does. -/
theorem PinBound.modEntry (h : PinBound a u m) {id : Nat} {f : Entry → Entry} (hf : ∀ e, (f e).pageNeed = e.pageNeed)
    (hp : ∀ e, m' id < (f e).pins → m id < e.pins) (hm : ∀ i, i ≠ id → m i ≤ m' i) : PinBound a (u.modEntry id f) m' where
  wf := twf_tset none id _ h.wf
  bound i e he hlt := by
    rw [State.modEntry, State.entry_setEntry] at he
    split at he
    · rename_i e'; subst e'
      obtain ⟨e0, h0, rfl⟩ := Option.map_eq_some_iff.1 he
      rw [hf]
      exact h.bound i e0 h0 (hp e0 hlt)
    · rename_i hi
      exact h.bound i e he (Nat.lt_of_le_of_lt (hm i hi) hlt)

theorem PinBound.addPin (h : PinBound a u m) (x : Nat) : PinBound a (addPin u x) (fun i => m i + if x = i then 1 else 0) := by
  have raised : PinBound a (u.modEntry x (fun e => { e with pins := e.pins + 1 })) (fun i => m i + if x = i then 1 else 0) :=
    h.modEntry (fun _ => rfl) (fun e hp => by simpa using hp) (fun i _ => Nat.le_add_right _ _)
  exact raised.follow ((overloadJudged_acts (S := fun _ => False) _).entries raised.wf)

theorem PinBound.releasePin (h : PinBound a u m) (x : Nat) : PinBound a (releasePin u x) (fun i => m i - if x = i then 1 else 0) := by
  have lowered : PinBound a (u.modEntry x (fun e => { e with pins := e.pins - 1 })) (fun i => m i - if x = i then 1 else 0) :=
    h.modEntry (fun _ => rfl) (fun e hp => by rw [if_pos rfl] at hp; dsimp only at hp; omega)
      (fun i hi => by rw [if_neg (Ne.symm hi)]; exact Nat.le_refl _)
  have settled := (settlePlace_acts (S := fun _ => False) (u.modEntry x (fun e => { e with pins := e.pins - 1 })) x).trans
    (overloadJudged_acts _)
  exact lowered.follow (settled.entries lowered.wf)

theorem PinBound.releasePins (h : PinBound a u m) (l : List (Nat × Nat)) :
    PinBound a (l.foldl (fun s x => Machine.releasePin s x.2) u) (fun i => m i - l.countP (fun x => x.2 == i)) := by
  induction l generalizing u m with
  | nil => simpa using h
  | cons x l ih =>
    refine (ih (h.releasePin x.2)).mono fun i => ?_
    rw [List.countP_cons]
    simp only [beq_iff_eq]
    omega

/-- The covered frames among `fs` that an entry stands for. -/
def Pin.newPins (q : Pin) (fs : List Nat) (id : Nat) : Nat := q.covered.countP (fun x => fs.contains x.1 && x.2 == id)

theorem PinBound.uncover (h : PinBound a u m) (p : Nat) (f : Nat → Bool)
    (hm : ∀ i, m i ≤ m' i + ((u.pin p).covered.filter (fun x => f x.1)).countP (fun x => x.2 == i)) :
    PinBound a (uncover u p f) m' := by
  have : PinBound a (u.setPin p { u.pin p with covered := (u.pin p).covered.filter (fun x => !f x.1) }) m := h.congr rfl
  exact (this.releasePins _).mono fun i => by have := hm i; omega

theorem PinBound.coverFrame {fs : List Nat} {p f : Nat} (hf : f ∈ fs) (h : PinBound a u ((u.pin p).newPins fs)) :
    PinBound a (Machine.coverFrame u p f) (((Machine.coverFrame u p f).pin p).newPins fs) := by
  cases hw : pinWant u (u.pin p).clip (u.pin p).view f with
  | none => rw [coverFrame_none hw]; exact h
  | some x =>
    obtain ⟨k, l, n⟩ := x
    have count : ∀ i, ((Machine.coverFrame u p f).pin p).newPins fs i =
        (u.pin p).newPins fs i + if (findOrAdmit u k (u.clip (u.pin p).clip).volume l).2 = i then 1 else 0 := fun i => by
      rw [coverFrame_pin hw, if_pos rfl]
      have := (insertBy_perm (fun a b => decide (a.1 < b.1)) (f, (findOrAdmit u k (u.clip (u.pin p).clip).volume l).2)
        (u.pin p).covered).countP_eq (fun x => fs.contains x.1 && x.2 == i)
      unfold Pin.newPins Pin.withFrame
      rw [this, List.countP_cons]
      simp [hf]
    have admitted := (h.follow ((findOrAdmit_acts (S := fun _ => False) u k (u.clip (u.pin p).clip).volume l
      (pinWant_found hw)).entries h.wf)).addPin (findOrAdmit u k (u.clip (u.pin p).clip).volume l).2
    refine (admitted.congr ?_).mono (fun i => Nat.le_of_eq (count i).symm)
    unfold Machine.coverFrame
    dsimp only
    rw [hw]
    rfl

theorem PinBound.coverFrames {fs : List Nat} {p : Nat} (gs : List Nat) (hg : ∀ f ∈ gs, f ∈ fs)
    (h : PinBound a u ((u.pin p).newPins fs)) :
    PinBound a (Machine.coverFrames u p gs) (((Machine.coverFrames u p gs).pin p).newPins fs) := by
  induction gs generalizing u with
  | nil => exact h
  | cons f gs ih => exact ih (fun i hi => hg i (List.mem_cons_of_mem _ hi)) (h.coverFrame (hg f (List.mem_cons_self ..)))

theorem PinBound.truncatePin {fs : List Nat} {p : Nat} (n : Nat) (h : PinBound a u ((u.pin p).newPins fs)) :
    PinBound a (Machine.truncatePin p n u) (((Machine.truncatePin p n u).pin p).newPins fs) := by
  induction n generalizing u with
  | zero => exact h
  | succ n ih =>
    unfold Machine.truncatePin
    split
    · exact h
    · dsimp only
      have set : PinBound a (u.setPin p { u.pin p with held := (u.pin p).held - 1, state := .part }) ((u.pin p).newPins fs) :=
        h.congr rfl
      refine ih (set.uncover p _ fun i => ?_)
      rw [uncover_pin, if_pos rfl, State.pin_setPin, if_pos rfl]
      unfold Pin.newPins
      rw [List.countP_eq_countP_filter_add (u.pin p).covered _ (fun x => x.1 == (u.pin p).first + (u.pin p).held - 1), Nat.add_comm]
      refine Nat.add_le_add (Nat.le_of_eq (by simp)) (List.countP_mono_left fun x _ hx => ?_)
      exact (Bool.and_eq_true_iff.1 hx).2

end

/-! ## The refill of one pin -/

theorem mem_pinFramesIn {q : Pin} {g f : Nat} : f ∈ pinFramesIn q g ↔ f / 64 = g ∧ q.first ≤ f ∧ f < q.first + q.held := by
  unfold pinFramesIn
  simp only [List.mem_filter, List.mem_map, List.mem_range, decide_eq_true_eq]
  constructor
  · rintro ⟨⟨i, hi, rfl⟩, h⟩
    exact ⟨by omega, h⟩
  · rintro ⟨h, hr⟩
    exact ⟨⟨f - 64 * g, by omega, by omega⟩, hr⟩

/-- A pin as the refill for a group leaves it (R120). -/
structure Refilled (s t : State) (p g : Nat) : Prop where
  others : ∀ i, i ≠ p → t.pin i = s.pin i
  range : (t.pin p).range = { (s.pin p).range with
    held := (t.pin p).held, state := if (t.pin p).held < (s.pin p).held then .part else (s.pin p).state }
  held : (t.pin p).held ≤ (s.pin p).held
  covers : ∀ f ∈ pinFramesIn (t.pin p) g, (∃ id, (f, id) ∈ (t.pin p).covered) ↔
    ∃ n x a z, lookup s (s.pin p).clip f = .present n x a z
  kept : ∀ f id, f / 64 ≠ g → f < (s.pin p).first + (t.pin p).held → ((f, id) ∈ (t.pin p).covered ↔ (f, id) ∈ (s.pin p).covered)
  limits : twf none s.store.entries = true → twf none t.store.entries = true ∧
    (pinLimits (pinnedPages t) (pinnedEntries t) = true ∨
      (t.pin p).held = 0 ∧ pinLimits (pinnedPages s) (pinnedEntries s) = false)

theorem refillPin_refilled (g : Nat) (s : State) (p : Nat) : Refilled s (refillPin g s p) p g := by
  have uncovered := uncover_pin s p (fun f => (pinFramesIn (s.pin p) g).contains f)
  have hu := uncover_handles s p (fun f => (pinFramesIn (s.pin p) g).contains f)
  have bound : twf none s.store.entries = true → PinBound s (uncover s p (fun f => (pinFramesIn (s.pin p) g).contains f)) (fun _ => 0) :=
    fun hw => (PinBound.refl hw).uncover p _ (fun _ => Nat.zero_le _)
  unfold refillPin
  dsimp only
  generalize uncover s p (fun f => (pinFramesIn (s.pin p) g).contains f) = u at uncovered hu bound
  have here := uncovered p
  rw [if_pos rfl] at here
  obtain ⟨o1, r1, k1, n1, c1⟩ := coverFrames_covers p (pinFramesIn (s.pin p) g) u
  rw [lookup_congr hu.map, here] at n1 c1
  rw [here] at r1 k1
  replace bound := fun hw => ((bound hw).mono (m' := (u.pin p).newPins (pinFramesIn (s.pin p) g))
    (fun _ => Nat.zero_le _)).coverFrames (pinFramesIn (s.pin p) g) (fun _ h => h)
  generalize coverFrames u p (pinFramesIn (s.pin p) g) = v at o1 r1 k1 n1 c1 bound
  have held : (v.pin p).held = (s.pin p).held := congrArg (fun q => q.held) r1
  have first : (v.pin p).first = (s.pin p).first := congrArg (fun q => q.first) r1
  have state : (v.pin p).state = (s.pin p).state := congrArg (fun q => q.state) r1
  obtain ⟨o2, r2, h2, k2, l2⟩ := truncatePin_truncated p (s.pin p).held v held
  replace bound := fun hw => (bound hw).truncatePin (s.pin p).held
  generalize truncatePin p (s.pin p).held v = t at o2 r2 h2 k2 l2 bound
  rw [held, state, r1] at r2
  rw [held] at h2
  rw [held, first] at k2
  have tfirst : (t.pin p).first = (s.pin p).first := congrArg (fun q => q.first) r2
  have stays : ∀ x : Nat × Nat, x.1 < (s.pin p).first + (t.pin p).held → (x ∈ (t.pin p).covered ↔ x ∈ (v.pin p).covered) :=
    fun x hx => (k2 x).trans (and_iff_left (by omega))
  refine ⟨fun i hi => by rw [o2 i hi, o1 i hi, uncovered, if_neg hi], r2, h2, fun f hf => ?_, fun f id hg hf => ?_, fun hw => ?_⟩
  · obtain ⟨hg, hlow, hhigh⟩ := mem_pinFramesIn.1 hf
    rw [tfirst] at hlow hhigh
    have hfs : f ∈ pinFramesIn (s.pin p) g := mem_pinFramesIn.2 ⟨hg, hlow, by omega⟩
    constructor
    · rintro ⟨id, hm⟩
      rcases n1 _ ((stays (f, id) hhigh).1 hm) with h | ⟨-, h⟩
      · have := (List.mem_filter.1 h).2
        simp [hfs] at this
      · exact h
    · intro hp
      obtain ⟨id, hm⟩ := c1 f hfs hp
      exact ⟨id, (stays (f, id) hhigh).2 hm⟩
  · have hfs : f ∉ pinFramesIn (s.pin p) g := fun h => hg (mem_pinFramesIn.1 h).1
    refine (stays (f, id) hf).trans ⟨fun h => ?_, fun h => k1 _ (List.mem_filter.2 ⟨h, by simp [hfs]⟩)⟩
    rcases n1 _ h with h | ⟨h, -⟩
    · exact (List.mem_filter.1 h).1
    · exact absurd h hfs
  · have b := bound hw
    refine ⟨b.wf, ?_⟩
    rcases l2 with hl | hz
    · exact .inl hl
    · cases hs : pinLimits (pinnedPages s) (pinnedEntries s) with
      | false => exact .inr ⟨hz, rfl⟩
      | true =>
        refine .inl (pinLimits_within hw b.wf (fun id e he hp => b.bound id e he ?_) hs)
        have none : (t.pin p).newPins (pinFramesIn (s.pin p) g) id = 0 := by
          refine List.countP_eq_zero.2 fun x hx => ?_
          have := ((k2 x).1 hx).2
          simp only [Bool.and_eq_true, List.contains_iff_mem, mem_pinFramesIn, beq_iff_eq]
          omega
        rw [none]
        exact hp

/-! ## The refill of all pins -/

/-- The pins as the refills for a group leave them, those below `n` having had their turn. -/
structure PinsRefilled (s t : State) (h g n : Nat) : Prop where
  others : ∀ p, n ≤ p ∨ pinReached h g (s.pin p) = false → t.pin p = s.pin p
  range : ∀ p, (t.pin p).range = { (s.pin p).range with
    held := (t.pin p).held, state := if (t.pin p).held < (s.pin p).held then .part else (s.pin p).state }
  held : ∀ p, (t.pin p).held ≤ (s.pin p).held
  covers : ∀ p < n, pinReached h g (s.pin p) = true → ∀ f ∈ pinFramesIn (t.pin p) g,
    ((∃ id, (f, id) ∈ (t.pin p).covered) ↔ ∃ n x a z, lookup s h f = .present n x a z)
  kept : ∀ p f id, f / 64 ≠ g → f < (s.pin p).first + (t.pin p).held → ((f, id) ∈ (t.pin p).covered ↔ (f, id) ∈ (s.pin p).covered)
  limits : twf none s.store.entries = true → twf none t.store.entries = true ∧
    (pinLimits (pinnedPages t) (pinnedEntries t) = true ∨
      ∀ p < n, pinReached h g (s.pin p) = true → (t.pin p).held = 0)

theorem PinsRefilled.refl (s : State) (h g : Nat) : PinsRefilled s s h g 0 :=
  ⟨fun _ _ => rfl, fun _ => by rw [if_neg (Nat.lt_irrefl _)]; rfl, fun _ => Nat.le_refl _, nofun, fun _ _ _ _ _ => Iff.rfl,
    fun hw => ⟨hw, .inr nofun⟩⟩

/-- One more pin has its turn. -/
theorem PinsRefilled.step {s t : State} {h g n : Nat} (a : PinsRefilled s t h g n) (hl : lookup t = lookup s) :
    PinsRefilled s (if pinReached h g (t.pin n) then refillPin g t n else t) h g (n + 1) := by
  have same : t.pin n = s.pin n := a.others n (.inl (Nat.le_refl n))
  rw [same]
  cases hr : pinReached h g (s.pin n) with
  | false =>
    have below : ∀ p, p < n + 1 → pinReached h g (s.pin p) = true → p < n := fun p hp hx => by
      rcases Nat.lt_succ_iff_lt_or_eq.1 hp with hp | rfl
      · exact hp
      · rw [hr] at hx; cases hx
    rw [if_neg (by decide)]
    refine ⟨fun p hp => a.others p (hp.imp_left (fun hp => by omega)), a.range, a.held,
      fun p hp hx => a.covers p (below p hp hx) hx, a.kept, fun hw => ?_⟩
    obtain ⟨w, l⟩ := a.limits hw
    exact ⟨w, l.imp_right fun l p hp hx => l p (below p hp hx) hx⟩
  | true =>
    rw [if_pos rfl]
    have r := refillPin_refilled g t n
    generalize refillPin g t n = u at r
    obtain ⟨others, range, held, covers, kept, limits⟩ := r
    rw [same] at range held kept covers
    have hclip : (s.pin n).clip = h := by
      simp only [pinReached, Bool.and_eq_true, beq_iff_eq] at hr
      exact hr.1.2
    refine ⟨fun p hp => ?_, fun p => ?_, fun p => ?_, fun p hp hx => ?_, fun p => ?_, fun hw => ?_⟩
    · have hne : p ≠ n := by
        rintro rfl
        rcases hp with hp | hp
        · omega
        · rw [hr] at hp; cases hp
      rw [others p hne]
      exact a.others p (hp.imp_left (by omega))
    · by_cases e : p = n
      · subst e; exact range
      · rw [others p e]; exact a.range p
    · by_cases e : p = n
      · subst e; exact held
      · rw [others p e]; exact a.held p
    · by_cases e : p = n
      · subst e; rw [hclip, hl] at covers; exact covers
      · rw [others p e]; exact a.covers p (by omega) hx
    · by_cases e : p = n
      · subst e; exact kept
      · rw [others p e]; exact a.kept p
    · obtain ⟨wt, lt⟩ := a.limits hw
      obtain ⟨wu, lu⟩ := limits wt
      refine ⟨wu, lu.imp_right fun ⟨hz, hover⟩ p hp hx => ?_⟩
      by_cases e : p = n
      · subst e; exact hz
      · rw [others p e]
        exact lt.resolve_left (by rw [hover]; decide) p (by omega) hx

theorem refillPins_refilled (s : State) (h g : Nat) : PinsRefilled s (refillPins s h g) h g Config.pins := by
  have turns : ∀ n, PinsRefilled s ((List.range n).foldl (fun s p =>
      if pinReached h g (s.pin p) then refillPin g s p else s) s) h g n ∧ Handles s ((List.range n).foldl (fun s p =>
      if pinReached h g (s.pin p) then refillPin g s p else s) s) := by
    intro n
    induction n with
    | zero => exact ⟨PinsRefilled.refl s h g, Handles.refl s⟩
    | succ n ih =>
      rw [List.range_succ, List.foldl_append]
      refine ⟨ih.1.step (lookup_congr ih.2.map), ih.2.trans ?_⟩
      simp only [List.foldl_cons, List.foldl_nil]
      split
      · exact refillPin_handles _ _ _
      · exact Handles.refl _
  exact (turns _).1

end Sys2Proof.Machine

/-! SUPPORT. The hand-off of a group write to entries, pins and channels (R16), and what stands of it after the event. -/

namespace Sys2Proof.Machine

/-! ## What an operation on a list leaves of its channel and ring -/

theorem releaseEntries_ring (s : State) (es : List ListEntry) (c : Nat) : (releaseEntries s es).ring c = s.ring c :=
  (releaseEntries_acts (S := fun _ => False) s es).rings c id

theorem releaseEntries_bare (s : State) (es : List ListEntry) (c : Nat) : ((releaseEntries s es).chan c).bare = (s.chan c).bare :=
  Channel.bare_of_still ((releaseEntries_acts (S := fun _ => False) s es).chans c id)

theorem modChan_bare {s : State} {c : Nat} {f : Channel → Channel} (h : (f (s.chan c)).bare = (s.chan c).bare) (i : Nat) :
    ((s.modChan c f).chan i).bare = (s.chan i).bare := by
  rw [State.chan_modChan]
  split
  · rename_i e; subst e; exact h
  · rfl

theorem recompute_ring (s : State) (c : Nat) (k : Recompute) (n : Word32) (i : Nat) : (recompute s c k n).ring i = s.ring i :=
  releaseEntries_ring _ _ i

theorem recompute_bare (s : State) (c : Nat) (k : Recompute) (n : Word32) (i : Nat) :
    ((recompute s c k n).chan i).bare = (s.chan i).bare := (releaseEntries_bare _ _ i).trans (modChan_bare (by rfl) i)

theorem reresolveGroup_ring (s : State) (c g i : Nat) : (reresolveGroup s c g).ring i = s.ring i := releaseEntries_ring _ _ i

theorem reresolveGroup_bare (s : State) (c g i : Nat) : ((reresolveGroup s c g).chan i).bare = (s.chan i).bare :=
  (releaseEntries_bare _ _ i).trans (modChan_bare (by rfl) i)

/-! ## REVOKEs decided -/

/-- The REVOKE of a period as a channel decides it (R63). -/
def Channel.revokeAt (ch : Channel) (r : Word32) : Revoke := ⟨r, ch.clip, ch.dueLow r⟩

theorem decideRevoke_ring (s : State) (c : Nat) (r : Word32) (b : Bool) : (decideRevoke s c r b).ring c = { s.ring c with
    revoke := some (earlierRevoke (s.ring c).revoke ((s.chan c).revokeAt r))
    transfer := (s.ring c).transfer.map (fun t => t.voidFrom r) } := by
  unfold decideRevoke
  dsimp only
  rw [show ∀ (u : State) (f : Channel → Channel), (u.modChan c f).ring c = u.ring c from fun _ _ => rfl, State.ring_modRing, if_pos rfl]
  rfl

theorem decideRevoke_chan (s : State) (c : Nat) (r : Word32) (b : Bool) : (decideRevoke s c r b).chan c = { (s.chan c).judged with
    lastRecord := if r = (s.chan c).dueIndex then (s.chan c).priorRecord else some (r - 1)
    flags := (s.chan c).flags ||| flagIf b ChanFlag.revised } := by
  unfold decideRevoke
  exact (State.chan_modChan _ _ _ _).trans (if_pos rfl)

/-- A REVOKE naming `r` waits in `u`, where none was waiting in `s`, and REVISED is set. -/
structure RevokeWaits (s u : State) (c : Nat) (r : Word32) : Prop where
  revised : (u.chan c).flags &&& ChanFlag.revised ≠ 0
  waits : (s.ring c).revoke = none → (u.ring c).revoke = some ((s.chan c).revokeAt r) ∧
    (u.ring c).recordArea = (s.ring c).recordArea ∧ (u.ring c).nextSlot = (s.ring c).nextSlot ∧ (u.ring c).gap = (s.ring c).gap

theorem decideRevoke_waits (s : State) (c : Nat) (r : Word32) : RevokeWaits s (decideRevoke s c r true) c r where
  revised := by
    rw [decideRevoke_chan]
    exact (by decide : ∀ f : BitVec 7, (f ||| flagIf true ChanFlag.revised) &&& ChanFlag.revised ≠ 0) _
  waits h := by
    rw [decideRevoke_ring, h]
    exact ⟨rfl, rfl, rfl, rfl⟩

/-- A waiting REVOKE stands with its ring and its channel's record. -/
theorem RevokeWaits.stands {s u v : State} {c : Nat} {r : Word32} (w : RevokeWaits s u c r) (hr : v.ring c = u.ring c)
    (hb : (v.chan c).bare = (u.chan c).bare) : RevokeWaits s v c r :=
  ⟨fun hz => w.revised ((congrArg (fun ch => ch.flags &&& ChanFlag.revised) hb).symm.trans hz), fun h => by rw [hr]; exact w.waits h⟩

/-- The due time a REVOKE shows does not go by the list. -/
theorem Channel.revokeAt_bare (ch : Channel) (r : Word32) : ch.bare.revokeAt r = ch.revokeAt r := rfl

theorem RevokeWaits.of_same {s s' u : State} {c : Nat} {r : Word32} (w : RevokeWaits s' u c r)
    (hc : (s'.chan c).bare = (s.chan c).bare) (hr : s'.ring c = s.ring c) : RevokeWaits s u c r :=
  ⟨w.revised, fun h => by
    have := w.waits (hr ▸ h)
    rw [hr, ← Channel.revokeAt_bare, hc, Channel.revokeAt_bare] at this
    exact this⟩

/-- A REVOKE that waits when an act has ended waits on after its event, or is written in it (R101). -/
theorem RevokeWaits.handed {s u t : State} {c : Nat} {r : Word32} (w : RevokeWaits s u c r) (l : Late u t)
    (hf : FlagsAdded lateFlags (u.chan c).flags (t.chan c).flags) (ho : s.out <+: u.out) : Revised s t c r := by
  refine ⟨hf.bit w.revised, fun h => ?_⟩
  obtain ⟨hv, hr, hn, hg⟩ := w.waits h
  rcases l.waiting c _ hv with e | o
  · exact .inl (by rw [e]; exact hv)
  · refine .inr (drop_mem_of_later ho l.out ?_)
    unfold Ring.revokeOutput Ring.recordAddress at o
    rw [hr, hn, hg] at o
    exact o

/-- REVISED is no flag an event sets late. -/
theorem FlagsAdded.revised {a b : BitVec 7} (h : FlagsAdded lateFlags a b) : b &&& ChanFlag.revised = a &&& ChanFlag.revised := by
  obtain ⟨f, rfl⟩ := h
  revert a f
  decide

/-! ## A group write reaches a channel -/

theorem firstRecordIn_still (ch : Channel) (g : Nat) : firstRecordIn ch.still g = firstRecordIn ch g := by
  unfold firstRecordIn
  rw [show ch.still.list = ch.list.map ListEntry.bare from rfl, List.filter_map, List.findSome?_map]
  rfl

theorem firstRecordIn_congr {a b : Channel} (h : a.still = b.still) (g : Nat) : firstRecordIn a g = firstRecordIn b g := by
  rw [← firstRecordIn_still, h, firstRecordIn_still]

theorem groupChanged_waits {s : State} {c g : Nat} {r : Word32} (hs : (s.chan c).state = .running)
    (hr : firstRecordIn (s.chan c) g = some r) : RevokeWaits s (groupChanged g s c) c r := by
  have eq : groupChanged g s c = reresolveGroup (recompute (decideRevoke s c r true) c .afterRevoke r) c g := by
    unfold groupChanged
    dsimp only
    rw [if_pos hs, hr]
  rw [eq]
  exact (decideRevoke_waits s c r).stands ((reresolveGroup_ring _ _ _ _).trans (recompute_ring _ _ _ _ _))
    ((reresolveGroup_bare _ _ _ _).trans (recompute_bare _ _ _ _ _))

theorem groupChanged_bare {s : State} {c g : Nat} (h : (s.chan c).state ≠ .running ∨ firstRecordIn (s.chan c) g = none) :
    ((groupChanged g s c).chan c).bare = (s.chan c).bare := by
  have none : (if (s.chan c).state = .running then firstRecordIn (s.chan c) g else none) = none := by
    split
    · rename_i hs; exact h.resolve_left (absurd hs)
    · rfl
  unfold groupChanged
  dsimp only
  rw [none]
  exact reresolveGroup_bare _ _ _ _

/-- One channel's turn among acts on several: what comes before it and after it are acts on the others. -/
theorem Acts.turn {f : State → Nat → State} (h : ∀ s c, Acts (· = c) s (f s c)) {l : List Nat} (hd : l.Nodup) {c : Nat} (hc : c ∈ l)
    (s : State) : ∃ u, Acts (fun i => i ∈ l ∧ i ≠ c) s u ∧ Acts (fun i => i ∈ l ∧ i ≠ c) (f u c) (l.foldl f s) := by
  obtain ⟨l1, l2, rfl⟩ := List.append_of_mem hc
  have hn := (List.nodup_append.1 hd)
  have h2 := (List.nodup_cons.1 hn.2.1).1
  refine ⟨l1.foldl f s, (Acts.each h l1 s).mono fun i hi => ⟨List.mem_append_left _ hi, fun e => ?_⟩, ?_⟩
  · exact hn.2.2 i hi c (List.mem_cons_self ..) e
  · rw [List.foldl_append, List.foldl_cons]
    refine (Acts.each h l2 _).mono fun i hi => ⟨List.mem_append_right _ (List.mem_cons_of_mem _ hi), fun e => ?_⟩
    exact h2 (e ▸ hi)

/-! ## The hand-off -/

/-- An entry of a serial becomes an orphan (R116). -/
def Entry.orphanAt (n : Nat) (e : Entry) : Entry := if e.key.serial == n then { e with orphan := true } else e

theorem orphanSerial_eq (s : State) (n : Nat) : orphanSerial s n =
    { s with store := { s.store with entries := tmap (fun _ o => o.map (Entry.orphanAt n)) s.store.entries } } := rfl

theorem orphanSerial_entry (s : State) (n id : Nat) : (orphanSerial s n).entry id = (s.entry id).map (Entry.orphanAt n) := by
  rw [orphanSerial_eq]
  exact tget_tmap none (fun _ o => Option.map (Entry.orphanAt n) o) _ _ rfl

theorem orphanSerial_wf (s : State) (n : Nat) (hw : twf none s.store.entries = true) :
    twf none (orphanSerial s n).store.entries = true := by
  rw [orphanSerial_eq]
  exact twf_tmap (f := fun _ o => o.map (Entry.orphanAt n)) (fun k v hv => by simpa using hv) hw

/-- The entries once those of the old serial are orphans, unless it is 0. -/
def orphaned (s : State) (n : Nat) : State := if n = 0 then s else orphanSerial s n

theorem orphaned_wf {s : State} (n : Nat) (hw : twf none s.store.entries = true) : twf none (orphaned s n).store.entries = true := by
  unfold orphaned
  split
  · exact hw
  · exact orphanSerial_wf s n hw

/-- Only the entry records are written. -/
theorem orphaned_eq (s : State) (n : Nat) : orphaned s n =
    { s with store := { s.store with entries := (orphaned s n).store.entries } } := by
  unfold orphaned
  split <;> rfl

theorem handOff_eq (s : State) (h g old : Nat) :
    handOff s h g old = (boundChannels s h).foldl (groupChanged g) (refillPins (orphaned s old) h g) := rfl

theorem handOff_does {w : Touched} (s : State) (h g old : Nat) (hw : w.pins = true) : Does w s (handOff s h g old) := by
  have orphan : Does w s (orphaned s old) := by
    unfold orphaned
    split
    · exact Does.refl s
    · exact (orphanWhere_follows s _).does
  have reach : ∀ s c, Does w s (groupChanged g s c) := fun s c => by
    unfold groupChanged
    dsimp only
    refine Does.trans ?_ (reresolveGroup_follows _ c g).does
    split
    · exact (decideRevoke_does _ _ _ _).trans (recompute_follows _ _ _ _).does
    · exact Does.refl s
  rw [handOff_eq]
  exact (orphan.trans (refillPins_does hw _ h g)).trans (Does.foldl (fun s c _ => reach s c) _)

theorem handOff_map (s : State) (h g old : Nat) : (handOff s h g old).map = s.map := by
  rw [handOff_eq, (Acts.each (groupChanged_acts g) _ _).map, (refillPins_handles _ h g).map, orphaned_eq]

/-- What a hand-off hands on, from the state `s` before the write of the slot, through the state `u` it leaves, to the state `t`
after the event (R16). -/
theorem groupHanded_of_handOff {s u t : State} {h g : Nat} (hh : h ≠ 0) (hstore : u.store = s.store) (hchans : u.chans = s.chans)
    (hrings : u.rings = s.rings) (hout : u.out = s.out)
    (gone : SerialsHeld s → (s.clip h).slot g ≠ .empty → ¬SerialFound u ((s.clip h).slot g).serial)
    (closes : Closes (handOff u h g ((s.clip h).slot g).serial) t) : GroupHanded s t h g := by
  obtain ⟨l, hp, hf⟩ := closes
  generalize hn : ((s.clip h).slot g).serial = n at gone l hp hf
  have ho : s.out <+: (handOff u h g n).out := hout ▸ (handOff_does (w := { pins := true }) u h g n rfl).frame.out
  have hmap := handOff_map u h g n
  rw [handOff_eq] at l hp hf ho hmap
  have aeq := orphaned_eq u n
  have awf := orphaned_wf (s := u) n
  have aentry : n ≠ 0 → (orphaned u n).entry = (orphanSerial u n).entry := fun h => by unfold orphaned; rw [if_neg h]
  generalize orphaned u n = a at l hp hf ho hmap aeq awf aentry
  have amap : a.map = u.map := by rw [aeq]
  have apin : ∀ p, a.pin p = s.pin p := fun p => by rw [aeq]; unfold State.pin; rw [hstore]
  have achan : ∀ c, a.chan c = s.chan c := fun c => by rw [aeq]; unfold State.chan; rw [hchans]
  have aring : ∀ c, a.ring c = s.ring c := fun c => by rw [aeq]; unfold State.ring; rw [hrings]
  have b := refillPins_refilled a h g
  have hb := refillPins_handles a h g
  generalize refillPins a h g = b' at l hp hf ho hmap b hb
  have each := Acts.each (groupChanged_acts g) (boundChannels u h) b'
  have turn := fun c (hc : c ∈ boundChannels u h) => Acts.turn (groupChanged_acts g) (boundChannels_nodup u h) hc b'
  generalize List.foldl (groupChanged g) b' (boundChannels u h) = d at l hp hf ho hmap each turn
  have bound : ∀ c, c ∈ boundChannels u h ↔ c < 64 ∧ (s.chan c).clip = h := fun c => by
    have : u.chan c = s.chan c := by unfold State.chan; rw [hchans]
    rw [mem_boundChannels, this]
    exact and_congr_right' (and_iff_left hh)
  have tmap : t.map = a.map := l.map.trans (hmap.trans amap.symm)
  have tpin : ∀ p, t.pin p = b'.pin p := fun p => by unfold State.pin; rw [hp, each.pins]
  have tables : TablesHeld s → twf none a.store.entries = true := fun ht => awf (hstore ▸ ht.2.2.2.2.1)
  have late : TablesHeld s → EntriesFollow b' t := fun ht =>
    (each.entries (hb.keys (tables ht)).wf).trans each.map (l.entries (each.entries (hb.keys (tables ht)).wf).wf)
  refine
    { orphaned := fun ht hs id e he hfind hslot => ?_, otherPins := fun p hp => ?_, range := fun p => ?_
      refilled := fun p hp hr f hm => ?_, kept := fun p f id hg hlt => ?_, limits := fun ht => ?_
      revised := fun c hc r hclip hrun hfirst => ?_, unrevised := fun c hc => ?_ }
  · have absent := gone hs hslot
    have positive : n ≠ 0 := by
      have := (hs.2.1 h g hslot).1
      omega
    rcases ((hb.keys (tables ht)).trans hb.map (late ht).keys).old id e he with ⟨e0, h0, hk, horph⟩ | found
    · rw [aentry positive, orphanSerial_entry] at h0
      obtain ⟨e1, -, rfl⟩ := Option.map_eq_some_iff.1 h0
      unfold Entry.orphanAt at hk horph
      rw [hk, hn]
      intro heq
      have isOrphan : e.orphan = true := by
        split at heq
        · rename_i h1; rw [horph, if_pos h1]
        · rename_i h1; exact absurd (beq_iff_eq.2 heq) h1
      rw [Entry.findable, isOrphan] at hfind
      cases hfind
    · rw [hn]
      rintro heq
      exact absent ((SerialFound.congr amap n).1 (heq ▸ found))
  · rw [tpin, b.others p (by rw [apin]; exact hp), apin]
  · have hr := b.range p
    have hheld := b.held p
    rw [← tpin, apin] at hr hheld
    exact ⟨congrArg (fun q => q.clip) hr, congrArg (fun q => q.view) hr, congrArg (fun q => q.first) hr,
      congrArg (fun q => q.count) hr, hheld, congrArg (fun q => q.state) hr⟩
  · have := b.covers p hp (by rw [apin]; exact hr) f (by rw [← tpin]; exact hm)
    rw [← tpin, ← lookup_congr tmap] at this
    exact this
  · have hr := b.range p
    rw [← tpin, apin] at hr
    have hfirst : (t.pin p).first = (s.pin p).first := congrArg (fun q => q.first) hr
    have := b.kept p f id hg (by rw [← tpin, apin, ← hfirst]; exact hlt)
    rw [← tpin, apin] at this
    exact this
  · refine (b.limits (tables ht)).2.imp (fun hl => ?_) (fun hz p hp hr => ?_)
    · exact pinLimits_within (hb.keys (tables ht)).wf (late ht).wf (late ht).pinnedWithin hl
    · rw [tpin]
      exact hz p hp (by rw [apin]; exact hr)
  · obtain ⟨v, before, after⟩ := turn c ((bound c).2 ⟨hc, hclip⟩)
    have still := (before.chans c (fun h => h.2 rfl)).trans (hb.chans c)
    rw [achan] at still
    have ring := (before.rings c (fun h => h.2 rfl)).trans (hb.rings c)
    rw [aring] at ring
    have waits := groupChanged_waits (s := v) (c := c) (g := g) (r := r)
      ((congrArg (fun ch => ch.state) still).trans hrun) ((firstRecordIn_congr still g).trans hfirst)
    refine ((waits.of_same (Channel.bare_of_still still) ring).stands (after.rings c (fun h => h.2 rfl)) ?_).handed l (hf c) ho
    exact Channel.bare_of_still (after.chans c (fun h => h.2 rfl))
  · have bare : (d.chan c).bare = (s.chan c).bare := by
      by_cases hm : c ∈ boundChannels u h
      · obtain ⟨hc64, hclip⟩ := (bound c).1 hm
        obtain ⟨v, before, after⟩ := turn c hm
        have still := (before.chans c (fun h => h.2 rfl)).trans (hb.chans c)
        rw [achan] at still
        refine (Channel.bare_of_still (after.chans c (fun h => h.2 rfl))).trans ((groupChanged_bare ?_).trans (Channel.bare_of_still still))
        rcases hc with hc | hc | hc | hc
        · exact absurd hc64 (Nat.not_lt.2 hc)
        · exact absurd hclip hc
        · exact .inl (by rw [show (v.chan c).state = _ from congrArg (fun ch => ch.state) still]; exact hc)
        · exact .inr ((firstRecordIn_congr still g).trans hc)
      · rw [← achan]
        exact (Channel.bare_of_still (each.chans c hm)).trans (Channel.bare_of_still (hb.chans c))
    rw [(hf c).revised]
    exact congrArg (fun ch => ch.flags &&& ChanFlag.revised) bare

end Sys2Proof.Machine

/-! SUPPORT. Group writes in the Frame Map (R12 to R15), and the requests that make them. -/

namespace Sys2Proof.Machine

theorem Clip.slot_withSlot (c : Clip) (g : Nat) (v : GroupSlot) (j : Nat) : (c.withSlot g v).slot j = if j = g then v else c.slot j := by
  unfold Clip.slot Clip.page Clip.withSlot
  dsimp only
  rw [tget_tset]
  by_cases hp : j / 256 = g / 256
  · rw [if_pos hp]
    unfold DirPage.slot DirPage.withSlot
    dsimp only
    rw [tget_tset]
    by_cases hs : j % 256 = g % 256
    · rw [if_pos hs, if_pos (by omega)]
    · rw [if_neg hs, if_neg (by rintro rfl; exact hs rfl), hp]
      rfl
  · rw [if_neg hp, if_neg (by rintro rfl; exact hp rfl)]

theorem writeSlot_clip (s : State) (h g : Nat) (v : GroupSlot) (k : Nat) :
    (writeSlot s h g v).clip k = if k = h then (s.clip h).withSlot g v else s.clip k := State.clip_setClip _ _ _ _

theorem writeSlot_slot (s : State) (h g : Nat) (v : GroupSlot) (k j : Nat) :
    ((writeSlot s h g v).clip k).slot j = if k = h ∧ j = g then v else (s.clip k).slot j := by
  rw [writeSlot_clip]
  by_cases hk : k = h
  · subst hk
    rw [if_pos rfl, Clip.slot_withSlot]
    simp
  · rw [if_neg hk, if_neg (fun h => hk h.1)]

/-- A frame is present under its slot's serial alone. -/
theorem GroupSlot.serial_of_present {v : GroupSlot} {i n j a z : Nat} (h : v.frame i = .present n j a z) :
    v ≠ .empty ∧ v.serial = n := by
  cases v with
  | empty => cases h
  | uniform m b y p =>
    simp only [GroupSlot.frame] at h
    split at h
    · cases h; exact ⟨nofun, rfl⟩
    · cases h
  | listed m t =>
    simp only [GroupSlot.frame] at h
    split at h
    · cases h; exact ⟨nofun, rfl⟩
    · cases h

/-- A serial found in the map is that of a slot. -/
theorem SerialFound.slot {s : State} {n : Nat} (h : SerialFound s n) : ∃ k j, ((s.clip k).slot j).serial = n := by
  obtain ⟨k, f, i, a, z, hl⟩ := h
  unfold lookup at hl
  dsimp only at hl
  split at hl
  · cases hl
  · exact ⟨k, f / 64, (GroupSlot.serial_of_present hl).2⟩

/-- The old serial of a slot written anew has left the map (R5, R16). -/
theorem serial_gone {s u : State} {h g : Nat} {v : GroupSlot} (hs : SerialsHeld s) (hold : (s.clip h).slot g ≠ .empty)
    (hu : ∀ k j, ((u.clip k).slot j) = if k = h ∧ j = g then v else (s.clip k).slot j)
    (hv : v.serial ≠ ((s.clip h).slot g).serial) : ¬SerialFound u ((s.clip h).slot g).serial := by
  intro found
  obtain ⟨k, j, hk⟩ := found.slot
  rw [hu] at hk
  split at hk
  · exact hv hk
  · rename_i hne
    exact hne (hs.1 h g k j hold hk)

/-- The state a hand-off begins in differs from the one at the event's start in the map and the port alone. -/
structure MapWritten (s u : State) : Prop where
  store : u.store = s.store
  chans : u.chans = s.chans
  rings : u.rings = s.rings
  out : u.out = s.out

/-- What the event of a group write leaves: its frame, its hand-off, the map it wrote, and its answer. -/
structure GroupWritten (s u t : State) (h g : Nat) (q : Ticket) (is : List Item) : Prop where
  frame : Frame { map := true, pins := true } s t
  handed : h ≠ 0 → GroupHanded s t h g
  map : t.map = u.map
  answered : Answered s t q.kind q.tag .ok 0 is

theorem GroupWritten.clip {s u t : State} {h g : Nat} {q : Ticket} {is : List Item} (w : GroupWritten s u t h g q is) (k : Nat) :
    t.clip k = u.clip k := by unfold State.clip; rw [w.map]

/-- An event whose act is the hand-off of a written slot and an answer, after which consequences may come before the event ends. -/
theorem groupWritten {s u x y t : State} {h g : Nat} {v : GroupSlot} {q : Ticket} {is : List Item}
    (w : MapWritten s u) (d : Does { map := true, pins := true } s u)
    (hu : ∀ k j, ((u.clip k).slot j) = if k = h ∧ j = g then v else (s.clip k).slot j)
    (hv : SerialsHeld s → (s.clip h).slot g ≠ .empty → v.serial ≠ ((s.clip h).slot g).serial)
    (hx : x = (handOff u h g ((s.clip h).slot g).serial).reply q .ok is) (f : Follows x y) (e : Ends y t) (closes : Closes x t) :
    GroupWritten s u t h g q is := by
  have does : Does { map := true, pins := true } s x := by
    rw [hx]
    exact (d.trans (handOff_does u h g _ rfl)).trans (Does.reply _ _ _ _)
  have later : Does { map := true, pins := true } s y := does.trans f.does
  refine ⟨later.frame.ends later.now e, fun hh => ?_, ?_, ?_⟩
  · rw [hx] at closes
    exact groupHanded_of_handOff hh w.store w.chans w.rings w.out (fun hs hold => serial_gone hs hold hu (hv hs hold))
      ((Closes.reply _ _ _ _).trans closes)
  · rw [e.map, f.map, hx]
    exact handOff_map _ _ _ _
  · refine e.answers later.frame.out (f.handed.subset ?_)
    rw [hx]
    exact handed_reply _ _ _ _

/-- The taking of a request writes the port alone. -/
theorem beginTake_does {w : Touched} (s : State) : Does w s (beginTake s) :=
  ⟨(beginTake_frame s).of_empty w, rfl, List.prefix_rfl⟩

@[simp] theorem beginTake_clip (s : State) (h : Nat) : (beginTake s).clip h = s.clip h := rfl

theorem clipFault_eq_none {s : State} {h : Nat} (h1 : 1 ≤ h) (h2 : h ≤ 4095) (hs : (s.clip h).state = .live) : clipFault s h = none := by
  have hb : badClip s h = false := badClip_eq_false.2 ⟨h1, h2, by rw [hs]; decide⟩
  unfold clipFault
  rw [if_neg (by rw [hb]; decide), if_neg (by simp [hs])]

/-! ## GROUP_FIX -/

/-- The state a write of a slot under a serial leaves before its hand-off. -/
def slotWritten (s : State) (h g n : Nat) (v : GroupSlot) : State := spendSerial (writeSlot s h g v) n

theorem writeGroup_eq (s : State) (h g n : Nat) (v : GroupSlot) :
    writeGroup s h g n v = handOff (slotWritten s h g n v) h g ((s.clip h).slot g).serial := rfl

theorem slotWritten_slot (s : State) (h g n : Nat) (v : GroupSlot) (k j : Nat) :
    ((slotWritten s h g n v).clip k).slot j = if k = h ∧ j = g then v else (s.clip k).slot j := writeSlot_slot s h g v k j

theorem slotWritten_clip (s : State) (h g n : Nat) (v : GroupSlot) (k : Nat) :
    (slotWritten s h g n v).clip k = if k = h then (s.clip h).withSlot g v else s.clip k := writeSlot_clip s h g v k

theorem writeSlot_does {w : Touched} (s : State) (h g : Nat) (v : GroupSlot) (hm : w.map = true) : Does w s (writeSlot s h g v) :=
  (Does.setClip s _ _ hm).trans (Does.ofMap _ _ hm)

theorem slotWritten_does {w : Touched} (s : State) (h g n : Nat) (v : GroupSlot) (hm : w.map = true) :
    Does w s (slotWritten s h g n v) := (writeSlot_does s h g v hm).trans (Does.ofMap _ _ hm)

theorem doGroupFix_ok {s : State} {a : GroupFixArgs} {n : Nat} (t : Ticket) (h1 : 1 ≤ a.clip) (h2 : a.clip ≤ 4095)
    (hs : (s.clip a.clip).state = .live) (hg : a.group ≤ 16383) (hp1 : 1 ≤ a.present) (hp2 : a.present ≤ 64) (hz1 : 1 ≤ a.size)
    (hz2 : a.size ≤ 268435456) (hc : a.base + a.present * a.size ≤ (s.volume (s.clip a.clip).volume).capacity * 4096)
    (hv : a.base + a.present * a.size ≤ 281474976710656) (hn : s.map.serial = some n)
    (hw : (s.clip a.clip).pageAbsent (a.group / 256) = false ∨ 0 < s.map.freePages) :
    doGroupFix a t s = (writeGroup s a.clip a.group n (.uniform n a.base a.size a.present)).reply t .ok
      [item1 ((s.clip a.clip).slot a.group).code, item4 n, item4 ((s.clip a.clip).slot a.group).serial] := by
  have wanting : pageWanting s a.clip a.group = false := by
    unfold pageWanting
    rcases hw with h | h
    · rw [h]; rfl
    · simp; omega
  have capacity : a.base + a.present * a.size ≤ byteCapacity s a.clip := Nat.le_min.2 ⟨hc, hv⟩
  unfold doGroupFix
  rw [clipFault_eq_none h1 h2 hs]
  dsimp only
  rw [if_neg (by omega), if_neg (by omega), if_neg (by simp only [Config.maxFrame]; omega), if_neg (by omega), hn]
  dsimp only
  rw [if_neg (by rw [wanting]; decide)]

/-- A write into an EMPTY slot takes a page where the clip's page is absent, and counts one group more (R3, R12). -/
theorem slotWritten_empty {s : State} {h g n : Nat} {v : GroupSlot} (he : (s.clip h).slot g = .empty) (hv : v.isEmpty = false) :
    (slotWritten s h g n v).map.freePages = s.map.freePages - (if (s.clip h).pageAbsent (g / 256) then 1 else 0) ∧
      ((slotWritten s h g n v).clip h).groupCount = (s.clip h).groupCount + 1 := by
  have count : (((s.clip h).withSlot g v).page (g / 256)).count = ((s.clip h).page (g / 256)).count + 1 := by
    have page : ((s.clip h).withSlot g v).page (g / 256) = ((s.clip h).page (g / 256)).withSlot (g % 256) v := tget_tset_self _ _ _ _
    have slot : ((s.clip h).page (g / 256)).slot (g % 256) = .empty := he
    rw [page]
    unfold DirPage.withSlot
    rw [hv, slot]
    rfl
  constructor
  · show s.map.freePages + one (!(s.clip h).pageAbsent (g / 256)) - one (!((s.clip h).withSlot g v).pageAbsent (g / 256)) = _
    have : ((s.clip h).withSlot g v).pageAbsent (g / 256) = false := by unfold Clip.pageAbsent; rw [count]; rfl
    rw [this]
    cases (s.clip h).pageAbsent (g / 256) <;> simp [one]
  · have clip : (slotWritten s h g n v).clip h = (s.clip h).withSlot g v := (writeSlot_clip s h g v h).trans (if_pos rfl)
    rw [clip]
    unfold Clip.withSlot
    rw [hv, he]
    rfl

/-- Settles O26: the checks of R11 pass, the slot is written, and the hand-off does the rest (`groupWritten`). -/
theorem groupFixWritesUniformSlot : Obligations.GroupFixWritesUniformSlot := by
  intro s tag a n hoff h1 h2 hs hg hp1 hp2 hz1 hz2 hc hv hn hw
  refine ⟨_, exec_offered hoff, ?_⟩
  have act : ownerAct (.groupFix a) (ticketOf s (Request.groupFix a).kind tag) (beginTake s) = _ :=
    doGroupFix_ok (s := beginTake s) (ticketOf s 18 tag) h1 h2 hs hg hp1 hp2 hz1 hz2 hc hv hn hw
  rw [writeGroup_eq, beginTake_clip] at act
  generalize takeBase s (.groupFix a) = s0
  generalize ownerAct (.groupFix a) (ticketOf s (Request.groupFix a).kind tag) (beginTake s) = x at act ⊢
  have w := groupWritten (s := s) (u := slotWritten (beginTake s) a.clip a.group n (.uniform n a.base a.size a.present))
    (h := a.clip) (g := a.group) (v := .uniform n a.base a.size a.present) ⟨rfl, rfl, rfl, rfl⟩ ((beginTake_does s).trans (slotWritten_does _ _ _ _ _ rfl))
    (slotWritten_slot (beginTake s) a.clip a.group n (.uniform n a.base a.size a.present))
    (fun hser hne => (Nat.ne_of_lt ((hser.2.1 _ _ hne).2 n hn)).symm) act (Follows.refl x) (endEvent_ends s0 x) (endEvent_closes s0 x)
  refine ⟨w.answered, w.frame, w.handed (Nat.ne_of_gt h1), ?_, fun g hne => ?_, fun k hk => ?_, ?_, by rw [w.map]; rfl, fun he => ?_⟩
  · rw [w.clip, slotWritten_slot, if_pos ⟨rfl, rfl⟩]
  · rw [w.clip, slotWritten_slot, if_neg (fun h => hne h.2), beginTake_clip]
  · rw [w.clip, slotWritten_clip, if_neg hk, beginTake_clip]
  · rw [w.clip, slotWritten_clip, if_pos rfl]; rfl
  · rw [w.map, w.clip]; exact slotWritten_empty (s := beginTake s) he rfl

/-! ## GROUP_DROP -/

theorem doGroupDrop_ok {s : State} {a : GroupDropArgs} (t : Ticket) (h1 : 1 ≤ a.clip) (h2 : a.clip ≤ 4095)
    (hs : (s.clip a.clip).state = .live) (hg : a.group ≤ 16383) : doGroupDrop a t s =
      if ((s.clip a.clip).slot a.group).isEmpty then s.reply t .ok [item1 0, item1 0, item4 0]
      else (handOff (writeSlot s a.clip a.group .empty) a.clip a.group ((s.clip a.clip).slot a.group).serial).reply t .ok
        [item1 ((s.clip a.clip).slot a.group).code,
          itemFlag (((writeSlot s a.clip a.group .empty).clip a.clip).pageAbsent (a.group / 256)),
          item4 ((s.clip a.clip).slot a.group).serial] := by
  unfold doGroupDrop
  rw [clipFault_eq_none h1 h2 hs]
  dsimp only
  rw [if_neg (by omega)]

theorem GroupSlot.isEmpty_iff (v : GroupSlot) : v.isEmpty = true ↔ v = .empty := by cases v <;> simp [GroupSlot.isEmpty]

/-- Settles O29: an EMPTY slot is reported alone; another is emptied and the write handed on. -/
theorem groupDropEmptiesTheSlot : Obligations.GroupDropEmptiesTheSlot := by
  intro s tag a hoff h1 h2 hs hg
  refine ⟨_, exec_offered hoff, ?_⟩
  have act : ownerAct (.groupDrop a) (ticketOf s (Request.groupDrop a).kind tag) (beginTake s) = _ :=
    doGroupDrop_ok (s := beginTake s) (ticketOf s 20 tag) h1 h2 hs hg
  rw [beginTake_clip] at act
  generalize takeBase s (.groupDrop a) = s0
  generalize ownerAct (.groupDrop a) (ticketOf s (Request.groupDrop a).kind tag) (beginTake s) = x at act ⊢
  have e := endEvent_ends s0 x
  have closes := endEvent_closes s0 x
  generalize endEvent s0 x = t at e closes
  by_cases he : (s.clip a.clip).slot a.group = .empty
  · rw [if_pos ((GroupSlot.isEmpty_iff _).2 he)] at act
    have clip : ∀ k, t.clip k = s.clip k := fun k => by rw [e.clip, act]; rfl
    have does : Does {} s x := by rw [act]; exact (beginTake_does s).trans (Does.reply _ _ _ _)
    refine ⟨by rw [clip, he], fun g _ => by rw [clip], fun k _ => clip k, by rw [e.map, act]; rfl,
      fun _ => ⟨does.frame.ends does.now e, e.answers (q := ticketOf s 20 tag) does.frame.out ?_⟩, fun h => absurd he h⟩
    rw [act]
    exact handed_reply _ _ _ _
  · rw [if_neg (fun h => he ((GroupSlot.isEmpty_iff _).1 h))] at act
    have w := groupWritten (s := s) (u := writeSlot (beginTake s) a.clip a.group .empty) (h := a.clip) (g := a.group) (v := .empty)
      ⟨rfl, rfl, rfl, rfl⟩ ((beginTake_does s).trans (writeSlot_does _ _ _ _ rfl))
      (writeSlot_slot (beginTake s) a.clip a.group .empty) (fun hser hne => (Nat.ne_of_gt (hser.2.1 _ _ hne).1).symm) act
      (Follows.refl x) e closes
    refine ⟨?_, fun g hne => ?_, fun k hk => ?_, by rw [w.map]; rfl, fun h => absurd h he,
      fun _ => ⟨w.frame, w.handed (Nat.ne_of_gt h1), ?_⟩⟩
    · rw [w.clip, writeSlot_slot, if_pos ⟨rfl, rfl⟩]
    · rw [w.clip, writeSlot_slot, if_neg (fun h => hne h.2), beginTake_clip]
    · rw [w.clip, writeSlot_clip, if_neg hk, beginTake_clip]
    · rw [w.clip]; exact w.answered

end Sys2Proof.Machine

/-! SUPPORT. GROUP_LIST and the end of its fetch (R13, R14). -/

namespace Sys2Proof.Machine

theorem closeFetch_does {w : Touched} (s : State) (f : Fetch) (hm : w.map = true) : Does w s (closeFetch s f) := Does.ofMap _ _ hm

/-- The items a GROUP_LIST that is carried out answers with (R14, R187). -/
def listItems (old : GroupSlot) (es : List (Nat × Nat)) (n : Nat) : List Item :=
  [item1 old.code, item1 (es.filter (fun e => e.2 != 0)).length, item4 n, item4 old.serial]

/-- A list's entries of size above 0 are the frames its table holds (R13). -/
theorem tableOf_filter (es : List (Nat × Nat)) : ((tableOf es).filter (·.isSome)).length = (es.filter (fun e => e.2 != 0)).length := by
  have entries : ((es.map tableEntry).filter (·.isSome)).length = (es.filter (fun e => e.2 != 0)).length := by
    rw [List.filter_map, List.length_map]
    congr 2
    funext e
    unfold tableEntry
    by_cases h : e.2 = 0 <;> simp [h]
  have rest : (List.replicate (64 - es.length) (none : Option Location)).filter (·.isSome) = [] := by simp
  unfold tableOf
  rw [List.filter_append, rest, List.append_nil]
  exact entries

theorem endFetch_ok {s : State} {f : Fetch} {b : List Byte} {n : Nat}
    (hl : (decodeList f.count b).findIdx? (badListEntry (byteCapacity s f.clip)) = none) (hn : s.map.serial = some n) :
    endFetch s f (some b) =
      (handOff (slotWritten (closeFetch s f) f.clip f.group n (.listed n (tableOf (decodeList f.count b)))) f.clip f.group
        ((s.clip f.clip).slot f.group).serial).reply f.ticket .ok
        (listItems ((s.clip f.clip).slot f.group) (decodeList f.count b) n) := by
  have fault : listFault (byteCapacity s f.clip) f.count (some b) = none := hl
  have serial : (closeFetch s f).map.serial = some n := hn
  unfold endFetch
  dsimp only
  rw [fault]
  dsimp only
  unfold fillGroup
  rw [serial]
  dsimp only
  rw [Option.getD_some, tableOf_filter, writeGroup_eq]
  rfl

theorem endFetch_fault {s : State} {f : Fetch} {list : Option (List Byte)} {i : Nat}
    (hl : listFault (byteCapacity s f.clip) f.count list = some i) :
    endFetch s f list = (closeFetch s f).reply f.ticket .range [item1 0, item1 i] := by
  unfold endFetch
  dsimp only
  rw [hl]

/-- What an accepted GROUP_LIST keeps of its request (R13). -/
def fetchOf (s : State) (a : GroupListArgs) (t : Ticket) : Fetch :=
  ⟨t, a.clip, a.group, a.count, !((s.clip a.clip).slot a.group).isListed, (s.clip a.clip).pageAbsent (a.group / 256)⟩

/-- A table and a page set aside for a fetch (R13). -/
def setAside (s : State) (f : Fetch) : State :=
  { s with map := { s.map with
    fetch := some f
    freePages := s.map.freePages - one f.pageAside
    freeTables := s.map.freeTables - one f.tableAside } }

theorem startFetch_eq (s : State) (a : GroupListArgs) (t : Ticket) : startFetch s a t =
    if a.count = 0 then endFetch (setAside s (fetchOf s a t)) (fetchOf s a t) (some [])
    else (setAside s (fetchOf s a t)).emit (.readHost (BitVec.ofNat 64 a.address) (16 * a.count)) := rfl

theorem setAside_does {w : Touched} (s : State) (f : Fetch) (hm : w.map = true) : Does w s (setAside s f) := Does.ofMap _ _ hm

theorem doGroupList_ok {s : State} {a : GroupListArgs} {n : Nat} (t : Ticket) (h1 : 1 ≤ a.clip) (h2 : a.clip ≤ 4095)
    (hs : (s.clip a.clip).state = .live) (hg : a.group ≤ 16383) (hc : a.count ≤ 64) (hn : s.map.serial = some n)
    (hw : ((s.clip a.clip).slot a.group).isListed = true ∨ (0 < s.map.freeTables ∧
      ((s.clip a.clip).pageAbsent (a.group / 256) = false ∨ 0 < s.map.freePages))) :
    doGroupList a t s = startFetch s a t := by
  have space : (!((s.clip a.clip).slot a.group).isListed && (s.map.freeTables == 0 || pageWanting s a.clip a.group)) = false := by
    unfold pageWanting
    rcases hw with h | ⟨h, h' | h'⟩
    · rw [h]; rfl
    · rw [h']; simp; omega
    · simp; omega
  unfold doGroupList
  rw [clipFault_eq_none h1 h2 hs]
  dsimp only
  rw [if_neg (by omega), if_neg (by omega), if_neg (by rw [hn]; nofun), if_neg (by rw [space]; decide)]

/-- Settles O27: with entries the read of the list starts; with none the fetch ends at once in a write of 64 absent frames. -/
theorem groupListStartsItsFetch : Obligations.GroupListStartsItsFetch := by
  intro s tag a n hoff h1 h2 hs hg hc hn hw
  refine ⟨_, exec_offered hoff, ?_⟩
  have act : ownerAct (.groupList a) (ticketOf s (Request.groupList a).kind tag) (beginTake s) = _ :=
    (doGroupList_ok (s := beginTake s) (ticketOf s 19 tag) h1 h2 hs hg hc hn hw).trans (startFetch_eq _ _ _)
  generalize takeBase s (.groupList a) = s0
  generalize ownerAct (.groupList a) (ticketOf s (Request.groupList a).kind tag) (beginTake s) = x at act ⊢
  have e := endEvent_ends s0 x
  have closes := endEvent_closes s0 x
  generalize endEvent s0 x = t at e closes
  by_cases h0 : a.count = 0
  · rw [if_pos h0, endFetch_ok (s := setAside (beginTake s) (fetchOf (beginTake s) a (ticketOf s 19 tag)))
      (f := fetchOf (beginTake s) a (ticketOf s 19 tag)) (b := []) (n := n)
      (by rw [show (fetchOf (beginTake s) a (ticketOf s 19 tag)).count = 0 from h0]; rfl) hn,
      show (fetchOf (beginTake s) a (ticketOf s 19 tag)).count = 0 from h0] at act
    have w := groupWritten (s := s) (u := slotWritten (closeFetch (setAside (beginTake s) (fetchOf (beginTake s) a (ticketOf s 19 tag)))
      (fetchOf (beginTake s) a (ticketOf s 19 tag))) a.clip a.group n (.listed n (tableOf (decodeList 0 [])))) (h := a.clip)
      (g := a.group) (v := .listed n (tableOf (decodeList 0 []))) ⟨rfl, rfl, rfl, rfl⟩
      ((((beginTake_does s).trans (setAside_does _ _ rfl)).trans (closeFetch_does _ _ rfl)).trans (slotWritten_does _ _ _ _ _ rfl))
      (fun k j => slotWritten_slot (closeFetch _ _) a.clip a.group n _ k j)
      (fun hser hne => (Nat.ne_of_lt ((hser.2.1 _ _ hne).2 n hn)).symm) act (Follows.refl x) e closes
    refine ⟨fun k hk => ?_, fun h => absurd h0 (by omega), fun _ => ⟨w.frame, w.handed (Nat.ne_of_gt h1), w.answered, ?_, ?_⟩⟩
    · rw [w.clip, slotWritten_clip, if_neg hk]; rfl
    · rw [w.clip, slotWritten_slot, if_pos ⟨rfl, rfl⟩]; rfl
    · rw [w.map]; rfl
  · rw [if_neg h0] at act
    have does : Does { map := true } s x := by
      rw [act]
      exact ((beginTake_does s).trans (setAside_does _ _ rfl)).trans (Follows.emit _ _).does
    have map : t.map = (setAside (beginTake s) (fetchOf (beginTake s) a (ticketOf s 19 tag))).map := by rw [e.map, act]; rfl
    have clip : ∀ k, t.clip k = s.clip k := fun k => by unfold State.clip; rw [map]; rfl
    refine ⟨fun k _ => clip k, fun _ => ⟨does.frame.ends does.now e, clip _, by rw [map]; exact hn, by rw [map]; rfl, ?_, by rw [map]; rfl,
      e.outputs ?_ does.frame.out⟩, fun h => absurd h h0⟩
    · rw [map]
      show s.map.freeTables - one (!((s.clip a.clip).slot a.group).isListed) = _
      cases ((s.clip a.clip).slot a.group).isListed <;> rfl
    · rw [act]
      exact drop_mem_of_later (b := s.out) (c := s.out ++ [_]) List.prefix_rfl ⟨[_], rfl⟩ (by rw [List.drop_left]; exact List.mem_singleton_self _)

end Sys2Proof.Machine

/-! SUPPORT. Whatever a request does at its owner, it only hands over answers and adds outputs, and it leaves the head H (R174,
R176). -/

namespace Sys2Proof.Machine

/-- Answers handed over and outputs are only added, and H stands. -/
structure Adds (s t : State) : Prop where
  head : t.port.head = s.port.head
  handed : s.handed <+: t.handed
  out : s.out <+: t.out

theorem Adds.refl (s : State) : Adds s s := ⟨rfl, List.prefix_rfl, List.prefix_rfl⟩

theorem Adds.trans {s t u : State} (a : Adds s t) (b : Adds t u) : Adds s u :=
  ⟨b.head.trans a.head, a.handed.trans b.handed, a.out.trans b.out⟩

theorem Adds.ite {p : Prop} [Decidable p] {s a b : State} (ha : Adds s a) (hb : Adds s b) : Adds s (if p then a else b) := by
  split <;> assumption

/-- A further act, under a condition. -/
theorem Adds.when {p : Prop} [Decidable p] {s u : State} {f : State → State} (h : Adds s u) (hf : ∀ x, Adds x (f x)) :
    Adds s (if p then f u else u) := (h.trans (hf u)).ite h

theorem Adds.foldl {α : Type} {f : State → α → State} (h : ∀ s a, Adds s (f s a)) (l : List α) (s : State) :
    Adds s (l.foldl f s) := by
  induction l generalizing s with
  | nil => exact Adds.refl s
  | cons a l ih => exact (h s a).trans (ih _)

/-- A write of records. -/
theorem Adds.same {s t : State} (hp : t.port.head = s.port.head := by rfl) (hh : t.handed = s.handed := by rfl)
    (ho : t.out = s.out := by rfl) : Adds s t :=
  ⟨hp, hh ▸ List.prefix_rfl, ho ▸ List.prefix_rfl⟩

theorem Follows.adds {s t : State} (f : Follows s t) : Adds s t := ⟨congrArg Port.head f.port, f.handed, f.out⟩

theorem Acts.adds {S : Nat → Prop} {s t : State} (a : Acts S s t) : Adds s t :=
  ⟨congrArg Port.head a.port, a.handed, a.out ▸ List.prefix_rfl⟩

theorem Handles.adds {s t : State} (a : Handles s t) : Adds s t :=
  ⟨congrArg (fun s => s.port.head) a.beyond, a.handed, (show t.out = s.out from congrArg (fun s => s.out) a.beyond) ▸ List.prefix_rfl⟩

theorem Adds.modChan (s : State) (c : Nat) (f : Channel → Channel) : Adds s (s.modChan c f) := .same
theorem Adds.setClip (s : State) (h : Nat) (c : Clip) : Adds s (s.setClip h c) := .same
theorem Adds.setView (s : State) (v : Nat) (w : View) : Adds s (s.setView v w) := .same
theorem Adds.modLink (s : State) (m : Nat) (f : Link → Link) : Adds s (s.modLink m f) := .same

theorem Adds.replyDetail (s : State) (t : Ticket) (r : Result) (d : BitVec 8) (is : List Item) : Adds s (s.replyDetail t r d is) :=
  (Follows.replyDetail s t r d is).adds
theorem Adds.reply (s : State) (t : Ticket) (r : Result) (is : List Item) : Adds s (s.reply t r is) := .replyDetail s t r 0 is
theorem Adds.refuse (s : State) (t : Ticket) (r : Result) : Adds s (s.refuse t r) := .reply s t r []
theorem Adds.refuseRange (s : State) (t : Ticket) (n : Nat) : Adds s (s.refuseRange t n) := .replyDetail s t .range _ []
theorem Adds.refuseEmptyClip (s : State) (t : Ticket) : Adds s (s.refuseEmptyClip t) :=
  Adds.trans (Adds.replyDetail s t .range _ []) .same
theorem Adds.refuseOpt (s : State) (t : Option Ticket) (r : Result) : Adds s (s.refuseOpt t r) := by
  cases t with
  | none => exact Adds.refl s
  | some t => exact Adds.refuse s t r
theorem Adds.emit (s : State) (o : Output) : Adds s (s.emit o) := (Follows.emit s o).adds

/-! ## The Frame Map -/

theorem releaseViewOpt_adds (s : State) (v : Option Nat) : Adds s (releaseViewOpt s v) := by
  cases v with
  | none => exact Adds.refl s
  | some v => exact Adds.setView s v _

theorem freeClip_adds (s : State) (h : Nat) : Adds s (freeClip s h) :=
  Adds.trans (t := orphanWhere s (fun k => ((s.clip h).usedSlots.map GroupSlot.serial).contains k.serial))
    (orphanWhere_follows s _).adds .same

theorem unbind_adds (s : State) (h : Nat) : Adds s (unbind s h) := by
  unfold unbind
  dsimp only
  exact ((Adds.setClip s h _).trans (freeClip_adds _ h)).ite (Adds.setClip s h _)

theorem moveBind_adds (s : State) (old h : Nat) : Adds s (moveBind s old h) := by
  unfold moveBind
  exact (Adds.refl s).ite ((Adds.setClip s h _).ite ((Adds.setClip s h _).trans (unbind_adds _ old)))

theorem handOff_adds (s : State) (h g old : Nat) : Adds s (handOff s h g old) := by
  have orphan : Adds s (orphaned s old) := by
    rw [orphaned_eq]
    exact .same
  rw [handOff_eq]
  exact (orphan.trans (refillPins_handles _ h g).adds).trans (Acts.each (groupChanged_acts g) _ _).adds

theorem writeGroup_adds (s : State) (h g n : Nat) (v : GroupSlot) : Adds s (writeGroup s h g n v) :=
  Adds.trans (t := slotWritten s h g n v) .same (handOff_adds _ h g _)

theorem fillGroup_adds (s : State) (f : Fetch) (es : List (Nat × Nat)) : Adds s (fillGroup s f es) := by
  unfold fillGroup
  split
  · exact Adds.refuse _ _ _
  · exact (writeGroup_adds _ _ _ _ _).trans (Adds.reply _ _ _ _)

theorem endFetch_adds (s : State) (f : Fetch) (list : Option (List Byte)) : Adds s (endFetch s f list) := by
  have close : Adds s (closeFetch s f) := .same
  unfold endFetch
  dsimp only
  split
  · exact close.trans (Adds.reply _ _ _ _)
  · exact close.trans (fillGroup_adds _ _ _)

theorem startFetch_adds (s : State) (a : GroupListArgs) (t : Ticket) : Adds s (startFetch s a t) := by
  have aside : Adds s (setAside s (fetchOf s a t)) := .same
  rw [startFetch_eq]
  exact (aside.trans (endFetch_adds _ _ _)).ite (aside.trans (Adds.emit _ _))

theorem amendClip_adds (s : State) (a : ClipAmendArgs) : Adds s (amendClip s a) := by
  have length : Adds s (amendLength s a) := Adds.setClip s a.clip _
  have growing : ∀ u, Adds u (amendGrowing u a) := fun u => Adds.setClip u a.clip _
  unfold amendClip
  dsimp only
  have second := length.ite (p := a.length = (s.clip a.clip).length)
    (length.trans (Acts.each (lengthChanged_acts a.length) (boundChannels s a.clip) (amendLength s a)).adds)
  have third := Adds.ite (p := (!(s.clip a.clip).growing) = true ∧ a.growing = true)
    (second.trans (Acts.each growthBegan_acts (boundChannels s a.clip) _).adds) second
  have fourth := third.trans (growing _)
  exact (fourth.trans (Acts.each growthEnded_acts (boundChannels s a.clip) _).adds).ite fourth

/-! ## The Channel Controller -/

theorem endCue_adds (s : State) (c : Nat) (r : Result) : Adds s (endCue s c r) := by
  unfold endCue
  split
  · exact (Adds.refuse _ _ _).trans (Adds.modChan _ _ _)
  · exact Adds.refl s

theorem endStart_adds (s : State) (c : Nat) (r : Result) : Adds s (endStart s c r) := by
  unfold endStart
  split
  · rename_i q _
    have cancel : Adds (s.refuse q.ticket r) (cancelWait (s.refuse q.ticket r) c) := .same
    exact ((Adds.refuse _ _ _).trans cancel).trans (Adds.modChan _ _ _)
  · exact Adds.refl s

theorem endCourse_adds (s : State) (c : Nat) (r : Result) : Adds s (endCourse s c r) := by
  unfold endCourse
  split
  · exact (Adds.refuse _ _ _).trans (Adds.modChan _ _ _)
  · exact Adds.refl s

theorem endWaiting_adds (s : State) (c : Nat) (r : Result) : Adds s (endWaiting s c r) :=
  ((endCue_adds s c r).trans (endStart_adds _ c r)).trans (endCourse_adds _ c r)

theorem cutCue_adds (s : State) (c : Nat) : Adds s (cutCue s c) := by
  unfold cutCue completeCue
  dsimp only
  split
  · exact (Adds.reply _ _ _ _).trans (Adds.modChan _ _ _)
  · exact Adds.modChan _ _ _

theorem revokeFrom_adds (s : State) (c : Nat) (r : Word32) (b : Bool) : Adds s (revokeFrom s c r b) := (revokeFrom_acts s c r b).adds

theorem recompute_adds (s : State) (c : Nat) (k : Recompute) (n : Word32) : Adds s (recompute s c k n) := (recompute_acts s c k n).adds

theorem courseChange_adds (s : State) (c : Nat) (k : Recompute) (n : Word32) (f : Channel → Channel) :
    Adds s (courseChange s c k n f) := by
  unfold courseChange
  dsimp only
  refine Adds.trans ?_ ((Adds.modChan _ _ _).trans (recompute_adds _ _ _ _))
  split
  · exact ((endCourse_adds s c _).trans (revokeFrom_adds _ _ _ _)).trans (recompute_adds _ _ _ _)
  · exact (endCourse_adds s c _).trans (revokeFrom_adds _ _ _ _)

theorem cueTo_adds (s : State) (c : Nat) (t : Ticket) (p : Int) : Adds s (cueTo s c t p) := by
  unfold cueTo
  exact (((endCue_adds s c .superseded).trans (Adds.modChan _ _ _)).trans (recompute_adds _ _ _ _)).trans (Adds.modChan _ _ _)

theorem fireStart_adds (s : State) (c : Nat) (t : Ticket) (n : Nat) (b : Bool) : Adds s (fireStart s c t n b) := by
  unfold fireStart
  dsimp only
  exact (Adds.refuseEmptyClip _ _).ite
    ((((cutCue_adds s c).ite (Adds.refl s)).trans (Adds.modChan _ _ _)).trans (Adds.reply _ _ _ _))

theorem forceUnbind_adds (s : State) (c : Nat) : Adds s (forceUnbind s c) := by
  unfold forceUnbind
  dsimp only
  refine (endWaiting_adds s c .aborted).trans ?_
  exact ((((revokeFrom_adds _ _ _ _).ite (Adds.refl _)).trans (releaseList_acts _ _).adds).trans (releaseViewOpt_adds _ _)).trans
    ((Adds.setClip _ _ _).trans (Adds.modChan _ _ _))

theorem closeChannel_adds (s : State) (c : Nat) (t : Ticket) : Adds s (closeChannel s c t) := by
  have binding : ∀ u, Adds u (closeBinding u c) := fun u => by
    unfold closeBinding
    dsimp only
    exact (Adds.refl u).ite ((releaseViewOpt_adds _ _).trans (unbind_adds _ _))
  have ring : ∀ u, Adds u (closeRing u c) := fun u => by
    unfold closeRing dropRing
    dsimp only
    exact Adds.ite .same (((Adds.same (t := u.setRing c Ring.initial)).trans (Adds.refuseOpt _ _ _)).trans (Adds.modChan _ _ _))
  exact ((((endWaiting_adds s c .aborted).trans (releaseList_acts _ _).adds).trans (binding _)).trans (Adds.modChan _ _ _)).trans
    (ring _)

/-! ## Members and volumes -/

theorem failTags_adds (s : State) (m : Nat) : Adds s (failTags s m) :=
  Adds.foldl (fun s t => (Adds.modLink s m _).trans (readEnded_follows _ m t .lost).adds) _ s

theorem setMember_adds (s : State) (m : Nat) (k : MemberState) : Adds s (setMember s m k) := by
  unfold setMember
  dsimp only
  have noted : ∀ u, Adds u (noteMember u) := fun u => .same
  exact ((((Adds.modLink s m _).when (fun u => (leaveOnline_follows u m).adds)).when (fun u => failTags_adds u m)).when
    (fun u => (memberOnline_follows u).adds)).trans (noted _)

theorem endHold_adds (s : State) (m : Nat) (r : Result) : Adds s (endHold s m r) := (Adds.refuseOpt _ _ _).trans (Adds.modLink _ _ _)

theorem dissolve_adds (s : State) (v : Nat) : Adds s (dissolve s v) := by
  have gone : Adds s (forgetVolume (s.setVolume v Volume.initial) v) := .same
  exact gone.trans (Adds.foldl (fun s m => (Adds.modLink s m _).trans (setMember_adds _ m _)) _ _)

theorem defineVolume_adds (s : State) (a : VolumeDefineArgs) : Adds s (defineVolume s a) := by
  unfold defineVolume
  dsimp only
  have set : ∀ u : State, Adds u (u.setVolume a.volume (volumeOf a)) := fun u => .same
  have enlist : ∀ u x, Adds u (enlistMember a.volume u x) := fun u x => by
    unfold enlistMember
    exact (Adds.modLink u x.1 _).trans (setMember_adds _ x.1 _)
  exact (((dissolve_adds s a.volume).ite (Adds.refl s)).trans (set _)).trans (Adds.foldl enlist _ _)

/-! ## SERVICE_CLEAR -/

theorem clearBlocks_adds (s : State) : Adds s (clearBlocks s) := by
  have drop : ∀ u : State, Adds u { u with chans := [] } := fun u => .same
  have rings : ∀ u, Adds u (clearRings u) := fun u => .same
  have channels : Adds s (clearChannels s) :=
    (Adds.foldl (fun s c => (endWaiting_adds s c .aborted).trans (Adds.refuseOpt _ _ _)) _ s).trans (drop _)
  have map : ∀ u, Adds u (clearMap u) := fun u => Adds.foldl (fun s c => by
    dsimp only
    exact ((Adds.setClip _ _ _).trans (freeClip_adds _ _)).ite (Adds.setClip _ _ _)) _ u
  have links : ∀ u, Adds u ((List.range Config.members).foldl clearLink u) := fun u => Adds.foldl (fun s m => by
    unfold clearLink
    exact ((setMember_adds _ _ _).trans (endHold_adds _ _ _)).ite (Adds.refl s)) _ u
  have store : ∀ u, Adds u (clearSched (clearStore (clearViews u))) := fun u => .same
  have waits : ∀ u, Adds u (clearWaits u) := fun u => .same
  unfold clearBlocks
  exact ((((channels.trans (rings _)).trans (map _)).trans (store _)).trans (links _)).trans (waits _)

theorem answerClear_adds (s : State) : Adds s (answerClear s) := by
  unfold answerClear
  split
  · exact Adds.refl s
  · exact (Adds.refl s).ite ((Adds.reply _ _ _ _).trans .same)

/-! ## Every request -/

theorem doNotice_adds (a : NoticeModeArgs) (t : Ticket) (s : State) : Adds s (doNoticeMode a t s) := by
  have one : ∀ m1 m2 u c, Adds u (setChanNotices a.enables m1 m2 u c) := fun m1 m2 u c => .same
  have draw : ∀ u : State, Adds u u.draw := fun u => .same
  have set : ∀ m1 m2, Adds s (setNotices s a m1 m2 t) := fun m1 m2 => by
    unfold setNotices
    exact ((Adds.same (t := setPartNotices s a.enables m1 m2)).trans (Adds.reply _ _ _ _)).ite
      ((Adds.foldl (one m1 m2) _ s).trans (Adds.reply _ _ _ _))
  unfold doNoticeMode
  refine (Adds.refuse _ _ _).ite ?_
  split
  · exact (Adds.refuseRange _ _ _).trans (draw _)
  · exact Adds.refuseRange _ _ _
  · exact Adds.refuseRange _ _ _
  · exact set _ _

theorem doNoticeTake_adds (a : NoticeTakeArgs) (t : Ticket) (s : State) : Adds s (doNoticeTake a t s) := by
  unfold doNoticeTake
  dsimp only
  exact (Adds.refuse _ _ _).ite (((Adds.same (t := takePartFlags s a.mask)).trans (Adds.reply _ _ _ _)).ite
    ((Adds.modChan _ _ _).trans (Adds.reply _ _ _ _)))

theorem doClipMake_adds (a : ClipMakeArgs) (t : Ticket) (s : State) : Adds s (doClipMake a t s) := by
  unfold doClipMake
  refine (Adds.refuse _ _ _).ite ((Adds.refuseRange _ _ _).ite ?_)
  split
  · exact Adds.refuse _ _ _
  · exact Adds.trans .same (Adds.reply _ _ _ _)

theorem doClipAmend_adds (a : ClipAmendArgs) (t : Ticket) (s : State) : Adds s (doClipAmend a t s) :=
  (Adds.refuse _ _ _).ite ((Adds.refuse _ _ _).ite ((Adds.refuseRange _ _ _).ite ((amendClip_adds s a).trans (Adds.reply _ _ _ _))))

theorem doGroupFix_adds (a : GroupFixArgs) (t : Ticket) (s : State) : Adds s (doGroupFix a t s) := by
  unfold doGroupFix
  split
  · exact Adds.refuse _ _ _
  · refine (Adds.refuseRange _ _ _).ite ((Adds.refuseRange _ _ _).ite ((Adds.refuseRange _ _ _).ite ((Adds.refuseRange _ _ _).ite ?_)))
    split
    · exact Adds.refuse _ _ _
    · exact (Adds.refuse _ _ _).ite ((writeGroup_adds _ _ _ _ _).trans (Adds.reply _ _ _ _))

theorem doGroupList_adds (a : GroupListArgs) (t : Ticket) (s : State) : Adds s (doGroupList a t s) := by
  unfold doGroupList
  split
  · exact Adds.refuse _ _ _
  · exact (Adds.refuseRange _ _ _).ite ((Adds.refuseRange _ _ _).ite ((Adds.refuse _ _ _).ite ((Adds.refuse _ _ _).ite
      (startFetch_adds s a t))))

theorem doGroupDrop_adds (a : GroupDropArgs) (t : Ticket) (s : State) : Adds s (doGroupDrop a t s) := by
  have write : Adds s (writeSlot s a.clip a.group .empty) := .same
  unfold doGroupDrop
  split
  · exact Adds.refuse _ _ _
  · exact (Adds.refuseRange _ _ _).ite ((Adds.reply _ _ _ _).ite ((write.trans (handOff_adds _ _ _ _)).trans (Adds.reply _ _ _ _)))

theorem doClipRetire_adds (a : ClipRetireArgs) (t : Ticket) (s : State) : Adds s (doClipRetire a t s) := by
  have withdraw : Adds s (withdrawClip s a.clip t) :=
    ((Adds.foldl forceUnbind_adds _ s).trans (freeClip_adds _ _)).trans (Adds.reply _ _ _ _)
  have retire : Adds s (retireClip s a.clip t) :=
    ((freeClip_adds _ _).trans (Adds.reply _ _ _ _)).ite ((Adds.setClip _ _ _).trans (Adds.reply _ _ _ _))
  exact (Adds.refuse _ _ _).ite (withdraw.ite retire)

theorem doViewDefine_adds (a : ViewDefineArgs) (t : Ticket) (s : State) : Adds s (doViewDefine a t s) := by
  have change : ∀ b h, Adds s (changeView s a.view b h) := fun b h => .same
  unfold doViewDefine
  refine (Adds.refuse _ _ _).ite ((Adds.reply _ _ _ _).ite (((change _ _).trans (Adds.reply _ _ _ _)).ite ?_))
  split
  · exact Adds.refuseRange _ _ _
  · exact (change _ _).trans (Adds.reply _ _ _ _)

theorem doChanOpen_adds (a : ChanOpenArgs) (t : Ticket) (s : State) : Adds s (doChanOpen a t s) := by
  have records : Adds s ((s.setChan a.channel (openedChannel a)).setRing a.channel (openedRing a)) := .same
  exact (Adds.refuse _ _ _).ite ((Adds.refuse _ _ _).ite ((Adds.refuseRange _ _ _).ite ((Adds.refuseRange _ _ _).ite
    ((Adds.refuseRange _ _ _).ite ((records.trans (Adds.emit _ _)).trans (Adds.reply _ _ _ _))))))

theorem doChanBind_adds (a : ChanBindArgs) (t : Ticket) (s : State) : Adds s (doChanBind a t s) := by
  have bind : Adds s (bindChannel s a) := by
    unfold bindChannel
    exact ((((((moveBind_adds s _ _).trans (Adds.setView _ _ _)).trans (endCue_adds _ _ _)).trans (endStart_adds _ _ _)).trans
      (releaseList_acts _ _).adds).trans (releaseViewOpt_adds _ _)).trans (Adds.modChan _ _ _)
  have bounds : ∀ p, Adds s (refuseBounds s t p) := fun p => (Adds.refuseRange s t p).trans .same
  unfold doChanBind
  refine (Adds.refuse _ _ _).ite ((Adds.refuse _ _ _).ite ((Adds.refuseRange _ _ _).ite ?_))
  split
  · exact Adds.refuse _ _ _
  · refine (Adds.refuse _ _ _).ite ?_
    split
    · exact bounds _
    · exact bind.trans (Adds.reply _ _ _ _)

theorem doChanOptions_adds (a : ChanOptionsArgs) (t : Ticket) (s : State) : Adds s (doChanOptions a t s) := by
  have options : ∀ l, Adds s (setOptions s a l) := fun l => by
    unfold setOptions
    exact ((Adds.modChan _ _ _).ite ((Adds.modChan _ _ _).trans (courseChange_adds _ _ _ _ _))).ite
      ((Adds.modChan _ _ _).trans (recompute_adds _ _ _ _))
  have bounds : ∀ p, Adds s (refuseBounds s t p) := fun p => (Adds.refuseRange s t p).trans .same
  unfold doChanOptions
  refine (Adds.refuse _ _ _).ite ((Adds.refuse _ _ _).ite ((Adds.refuseRange _ _ _).ite ?_))
  split
  · exact bounds _
  · exact (options _).trans (Adds.reply _ _ _ _)

theorem doChanDepth_adds (a : ChanDepthArgs) (t : Ticket) (s : State) : Adds s (doChanDepth a t s) :=
  (Adds.refuse _ _ _).ite ((Adds.modChan _ _ _).trans (Adds.reply _ _ _ _))

theorem doChanCue_adds (a : PositionArgs) (t : Ticket) (s : State) : Adds s (doChanCue a t s) :=
  (Adds.refuse _ _ _).ite ((Adds.refuse _ _ _).ite ((Adds.refuseEmptyClip _ _).ite (cueTo_adds _ _ _ _)))

theorem doChanJump_adds (a : PositionArgs) (t : Ticket) (s : State) : Adds s (doChanJump a t s) := by
  have jump : Adds s (jumpRunning s a.channel t a.position) := (courseChange_adds _ _ _ _ _).trans (Adds.reply _ _ _ _)
  exact (Adds.refuse _ _ _).ite ((Adds.refuse _ _ _).ite ((Adds.refuseEmptyClip _ _).ite (jump.ite (cueTo_adds _ _ _ _))))

theorem doChanStart_adds (a : ChanStartArgs) (t : Ticket) (s : State) : Adds s (doChanStart a t s) := by
  have start : ∀ u ask, Adds u (startAs u a.channel ask a.time t) := fun u ask => by
    cases ask with
    | now => exact fireStart_adds _ _ _ _ _
    | atTime => exact (fireStart_adds _ _ _ _ _).ite (Adds.modChan _ _ _)
    | atReference => exact .same
  unfold doChanStart
  refine (Adds.refuse _ _ _).ite ((Adds.refuse _ _ _).ite ?_)
  split
  · exact Adds.refuseRange _ _ _
  · exact (Adds.refuseEmptyClip _ _).ite (((endStart_adds s a.channel .superseded).when (fun u => cutCue_adds u _)).trans (start _ _))

theorem doChanHold_adds (c : Nat) (t : Ticket) (s : State) : Adds s (doChanHold c t s) := by
  have still : Adds s (holdStill s c) := by
    have ended := (endCue_adds s c .superseded).trans (endStart_adds _ c .superseded)
    exact ended.ite (ended.trans (Adds.modChan _ _ _))
  have running : Adds s (holdRunning s c) := by
    unfold holdRunning
    refine Adds.trans ?_ (Adds.modChan _ _ _)
    split
    · exact ((endCourse_adds s c .superseded).trans (revokeFrom_adds _ _ _ _)).trans (recompute_adds _ _ _ _)
    · exact (endCourse_adds s c .superseded).trans (revokeFrom_adds _ _ _ _)
  exact (Adds.refuse _ _ _).ite ((Adds.refuse _ _ _).ite ((running.ite still).trans (Adds.reply _ _ _ _)))

theorem doChanSpeed_adds (a : ChanSpeedArgs) (t : Ticket) (s : State) : Adds s (doChanSpeed a t s) := by
  have running : Adds s (speedRunning s a.channel t (clampSpeed a.speed) a.apply) :=
    ((Adds.reply _ _ _ _).ite ((courseChange_adds _ _ _ _ _).trans (Adds.reply _ _ _ _))).ite (courseChange_adds _ _ _ _ _)
  have still : Adds s (speedStill s a.channel (clampSpeed a.speed)) := (Adds.modChan _ _ _).trans (recompute_adds _ _ _ _)
  unfold doChanSpeed
  refine (Adds.refuse _ _ _).ite ?_
  split
  · exact running
  · exact (Adds.modChan _ _ _).trans (Adds.reply _ _ _ _)
  · exact still.trans (Adds.reply _ _ _ _)

theorem doPinSet_adds (a : PinSetArgs) (t : Ticket) (s : State) : Adds s (doPinSet a t s) := by
  have set : ∀ p, Adds s (setPinRange s a p) := fun p =>
    ((Adds.setView s a.view _).trans (Handles.setPin _ p _).adds).trans (coverFrames_handles _ _ _).adds
  unfold doPinSet
  refine (Adds.refuse _ _ _).ite ((Adds.refuse _ _ _).ite ((Adds.refuseRange _ _ _).ite ((Adds.refuseRange _ _ _).ite ?_)))
  split
  · exact Adds.refuse _ _ _
  · exact (Adds.refuse _ _ _).ite ((Adds.refuse _ _ _).ite ((set _).trans (Adds.reply _ _ _ _)))

theorem doPinDrop_adds (p : Nat) (t : Ticket) (s : State) : Adds s (doPinDrop p t s) := by
  have drop : Adds s (dropPin s p) :=
    ((uncover_handles s p _).adds.trans (Handles.setPin _ p _).adds).trans (Adds.setView _ _ _)
  exact (Adds.refuse _ _ _).ite (drop.trans (Adds.reply _ _ _ _))

theorem doVolumeDefine_adds (a : VolumeDefineArgs) (t : Ticket) (s : State) : Adds s (doVolumeDefine a t s) := by
  unfold doVolumeDefine
  dsimp only
  split
  · exact Adds.replyDetail _ _ _ _ _
  · refine (Adds.replyDetail _ _ _ _ _).ite ?_
    split
    · exact Adds.replyDetail _ _ _ _ _
    · exact (Adds.refuse _ _ _).ite ((defineVolume_adds s a).trans (Adds.reply _ _ _ _))

theorem doVolumeDissolve_adds (v : Nat) (t : Ticket) (s : State) : Adds s (doVolumeDissolve v t s) :=
  (Adds.refuse _ _ _).ite ((Adds.replyDetail _ _ _ _ _).ite ((Adds.refuse _ _ _).ite ((dissolve_adds s v).trans (Adds.reply _ _ _ _))))

theorem doMemberHold_adds (m : Nat) (t : Ticket) (s : State) : Adds s (doMemberHold m t s) := by
  have hold : Adds s (holdMember s m t) :=
    (((Adds.modLink _ _ _).trans (setMember_adds _ _ _)).trans (Adds.reply _ _ _ _)).ite
      (((Adds.modLink _ _ _).trans (Adds.modLink _ _ _)).trans (setMember_adds _ _ _))
  exact (Adds.refuse _ _ _).ite ((Adds.refuse _ _ _).ite ((Adds.refuse _ _ _).ite ((Adds.refuse _ _ _).ite hold)))

theorem doMemberRelease_adds (m : Nat) (t : Ticket) (s : State) : Adds s (doMemberRelease m t s) :=
  (Adds.refuse _ _ _).ite ((Adds.refuse _ _ _).ite (((setMember_adds _ _ _).trans (endHold_adds _ _ _)).trans (Adds.reply _ _ _ _)))

theorem doMemberReturn_adds (m : Nat) (t : Ticket) (s : State) : Adds s (doMemberReturn m t s) :=
  (Adds.refuse _ _ _).ite ((Adds.reply _ _ _ _).ite ((Adds.modLink _ _ _).trans (Adds.emit _ _)))

/-- Every owner's act only adds. -/
theorem ownerAct_adds (r : Request) (t : Ticket) (s : State) : Adds s (ownerAct r t s) := by
  cases r with
  | noticeMode a => exact doNotice_adds a t s
  | noticeTake a => exact doNoticeTake_adds a t s
  | serviceClear =>
    have wait : ∀ (u : State) (w : Option ClearWait), Adds u { u with port := { u.port with clearWait := w } } := fun u w => .same
    show Adds s (doServiceClear t s)
    unfold doServiceClear
    exact ((clearBlocks_adds s).trans (wait _ _)).trans (answerClear_adds _)
  | clipMake a => exact doClipMake_adds a t s
  | clipAmend a => exact doClipAmend_adds a t s
  | groupFix a => exact doGroupFix_adds a t s
  | groupList a => exact doGroupList_adds a t s
  | groupDrop a => exact doGroupDrop_adds a t s
  | clipRetire a => exact doClipRetire_adds a t s
  | clipAsk c => exact (Adds.refuse _ _ _).ite (Adds.reply _ _ _ _)
  | frameAsk a => exact (Adds.refuse _ _ _).ite (Adds.reply _ _ _ _)
  | viewDefine a => exact doViewDefine_adds a t s
  | chanOpen a => exact doChanOpen_adds a t s
  | chanBind a => exact doChanBind_adds a t s
  | chanOptions a => exact doChanOptions_adds a t s
  | chanDepth a => exact doChanDepth_adds a t s
  | chanCue a => exact doChanCue_adds a t s
  | chanStart a => exact doChanStart_adds a t s
  | chanHold c => exact doChanHold_adds c t s
  | chanSpeed a => exact doChanSpeed_adds a t s
  | chanJump a => exact doChanJump_adds a t s
  | chanClose c => exact (Adds.refuse _ _ _).ite (closeChannel_adds s c t)
  | chanAsk a => exact (Adds.refuse _ _ _).ite (Adds.reply _ _ _ _)
  | slotReturn a =>
    have back : ∀ f, Adds s (s.modRing a.channel f) := fun f => .same
    exact (Adds.refuse _ _ _).ite ((back _).trans (Adds.reply _ _ _ _))
  | pinSet a => exact doPinSet_adds a t s
  | pinDrop p => exact doPinDrop_adds p t s
  | storeAsk a => exact (Adds.refuse _ _ _).ite (Adds.reply _ _ _ _)
  | volumeDefine a => exact doVolumeDefine_adds a t s
  | volumeDissolve v => exact doVolumeDissolve_adds v t s
  | memberHold m => exact doMemberHold_adds m t s
  | memberRelease m => exact doMemberRelease_adds m t s
  | memberReturn m => exact doMemberReturn_adds m t s
  | memberAsk m => exact (Adds.refuse _ _ _).ite (Adds.reply _ _ _ _)
  | calibrate p =>
    have arm : ∀ x : Timebase, Adds s { s with time := x } := fun x => .same
    exact (Adds.refuse _ _ _).ite ((Adds.refuseRange _ _ _).ite (arm _))
  | timeAsk => exact Adds.reply _ _ _ _

end Sys2Proof.Machine

/-! SUPPORT. The end of a GROUP_LIST fetch, and the request in hand that may be taken after it (R7, R14, R174). -/

namespace Sys2Proof.Machine

theorem handOff_port (s : State) (h g old : Nat) : (handOff s h g old).port = s.port := by
  rw [handOff_eq, (Acts.each (groupChanged_acts g) _ _).port, (refillPins_handles _ h g).port, orphaned_eq]

/-- The end of a fetch, its serial counter not SPENT, leaves the port and no fetch. -/
theorem endFetch_port {s : State} {f : Fetch} {n : Nat} (list : Option (List Byte)) (hn : s.map.serial = some n) :
    (endFetch s f list).port = s.port ∧ (endFetch s f list).map.fetch = none := by
  cases hl : listFault (byteCapacity s f.clip) f.count list with
  | some i => rw [endFetch_fault hl]; exact ⟨rfl, rfl⟩
  | none =>
    cases list with
    | none => cases hl
    | some b =>
      rw [endFetch_ok hl hn]
      exact ⟨handOff_port _ _ _ _, congrArg FrameMap.fetch (handOff_map _ _ _ _)⟩

/-- Whether a request can be taken goes by the port and the fetch in flight (R174). -/
theorem canTake_congr {s t : State} (hp : t.port = s.port) (hf : t.map.fetch = s.map.fetch) (k : Nat) : canTake t k = canTake s k := by
  unfold canTake
  rw [hp, hf]

/-- The taking of what is in hand: its own act from the state with the request taken, and the end of the event. -/
theorem takeThis_adds (s0 s : State) (q : InHand) : ∃ s1 x, takeThis s0 s q = endEvent s1 x ∧ Adds (beginTake s) x := by
  have kind : ∀ tag k b, ∃ s1 x, takeBadKind s0 tag k b s = endEvent s1 x ∧ Adds (beginTake s) x := fun tag k b =>
    ⟨s0, _, rfl, rfl, ⟨[_], rfl⟩, List.prefix_rfl⟩
  cases q with
  | request tag r => exact ⟨takeBase s0 r, _, rfl, ownerAct_adds r _ _⟩
  | unknown tag k => exact kind tag k false
  | failed => exact kind 0 0 true

/-- How an event that may let a request be taken ends (R174). -/
structure Taking (w t : State) (hand : Hand) (can : Nat → Bool) : Prop where
  answered : ∀ s : State, s.out <+: w.out → ∀ q r d is, (⟨q, r, false, d, is⟩ : Handed) ∈ w.handed → Answered s t q.kind q.tag r d is
  taken : ∀ q, hand = .held q → can (kindInHand q) = true → t.port.head = w.port.head + 1
  stays : (∀ q, hand = .held q → can (kindInHand q) = false) → ∃ s0, t = endEvent s0 w

theorem endTaking_taking (s0 w : State) : Taking w (endTaking s0 w) w.port.hand (canTake w) := by
  have held : ∀ q, takeable w = some q ↔ w.port.hand = .held q ∧ canTake w (kindInHand q) = true := fun q => by
    unfold takeable
    cases w.port.hand with
    | held p =>
      dsimp only
      split
      · rename_i hc
        constructor
        · intro h; cases h; exact ⟨rfl, hc⟩
        · rintro ⟨h, -⟩; cases h; rfl
      · rename_i hc
        refine ⟨nofun, ?_⟩
        rintro ⟨h, h'⟩
        cases h
        exact absurd h' hc
    | idle => exact ⟨nofun, fun h => nomatch h.1⟩
    | reading => exact ⟨nofun, fun h => nomatch h.1⟩
    | condemned => exact ⟨nofun, fun h => nomatch h.1⟩
  cases ht : takeable w with
  | none =>
    have eq : endTaking s0 w = endEvent s0 w := by unfold endTaking; rw [ht]
    rw [eq]
    refine ⟨fun s hp q r d is hm => (endEvent_ends s0 w).answers hp hm, fun q hq hc => ?_, fun _ => ⟨s0, rfl⟩⟩
    rw [(held q).2 ⟨hq, hc⟩] at ht
    cases ht
  | some q =>
    obtain ⟨s1, x, hx, a⟩ := takeThis_adds s0 w q
    have eq : endTaking s0 w = endEvent s1 x := by unfold endTaking; rw [ht]; exact hx
    rw [eq]
    have e := endEvent_ends s1 x
    refine ⟨fun s hp q r d is hm => e.answers (hp.trans a.out) (a.handed.subset hm), fun _ _ _ => e.head.trans a.head, fun hno => ?_⟩
    obtain ⟨hq, hc⟩ := (held q).1 ht
    rw [hno q hq] at hc
    cases hc

/-- A fetch that fails leaves every clip and the serial (R14). -/
theorem endFetch_stands {s w t : State} {f : Fetch} {list : Option (List Byte)} {i : Nat}
    (hi : listFault (byteCapacity s f.clip) f.count list = some i) (settled : Follows (endFetch s f list) w) (e : Ends w t) :
    Frame { map := true } s t ∧ (∀ k, t.clip k = s.clip k) ∧ t.map.serial = s.map.serial := by
  rw [endFetch_fault hi] at settled
  have does : Does { map := true } s w :=
    ((closeFetch_does s f rfl).trans (Does.reply _ f.ticket .range [item1 0, item1 i])).trans settled.does
  have map : t.map = (closeFetch s f).map := e.map.trans settled.map
  exact ⟨does.frame.ends does.now e, fun k => by unfold State.clip; rw [map]; rfl, by rw [map]; rfl⟩

/-- A fetch whose entries all pass writes the group and hands the write on (R14, R16). -/
theorem endFetch_fills {s w t : State} {f : Fetch} {b : List Byte} {n : Nat}
    (hl : (decodeList f.count b).findIdx? (badListEntry (byteCapacity s f.clip)) = none) (hn : s.map.serial = some n)
    (settled : Follows (endFetch s f (some b)) w) (e : Ends w t) (closes : Closes (endFetch s f (some b)) t) :
    GroupWritten s (slotWritten (closeFetch s f) f.clip f.group n (.listed n (tableOf (decodeList f.count b)))) t f.clip f.group
      f.ticket (listItems ((s.clip f.clip).slot f.group) (decodeList f.count b) n) :=
  groupWritten (s := s) (u := slotWritten (closeFetch s f) f.clip f.group n (.listed n (tableOf (decodeList f.count b))))
    (h := f.clip) (g := f.group) (v := .listed n (tableOf (decodeList f.count b))) ⟨rfl, rfl, rfl, rfl⟩
    ((closeFetch_does s f rfl).trans (slotWritten_does _ _ _ _ _ rfl))
    (fun k j => slotWritten_slot (closeFetch s f) f.clip f.group n _ k j)
    (fun hser hne => (Nat.ne_of_lt ((hser.2.1 _ _ hne).2 n hn)).symm) (endFetch_ok hl hn) settled e closes

/-- Settles O28: the fetch's answer stands in the hand-over through all that follows; where nothing is taken, the event is that of
a group write or of the answer alone. -/
theorem fetchEndFillsTheGroup : Obligations.FetchEndFillsTheGroup := by
  intro s f n list hf hn
  obtain ⟨port, fetch⟩ := endFetch_port (f := f) list hn
  have adds := endFetch_adds s f list
  generalize hx : endFetch s f list = x at port fetch adds
  have settled := settle_follows x
  have run : exec (.groupListFetchEnd list) s = .next (endTaking s (settle x)) := by
    show Host.Outcome.next _ = _
    rw [hf]
    dsimp only
    rw [hx]
  have closes := fun s0 => (settle_closes x).trans (endEvent_closes s0 (settle x))
  refine ⟨_, run, ?_⟩
  have taking := endTaking_taking s (settle x)
  generalize settle x = w at settled taking closes
  generalize endTaking s w = t at taking
  have hand : w.port.hand = s.port.hand := by rw [settled.port, port]
  have head : w.port.head = s.port.head := by rw [settled.port, port]
  have can : canTake w = canTake { s with map := { s.map with fetch := none } } :=
    funext (canTake_congr (s := { s with map := { s.map with fetch := none } }) (settled.port.trans port)
      ((congrArg FrameMap.fetch settled.map).trans fetch))
  rw [hand, can] at taking
  obtain ⟨answered, taken, stays⟩ := taking
  rw [head] at taken
  replace answered := fun r is (h : (⟨f.ticket, r, false, 0, is⟩ : Handed) ∈ x.handed) =>
    answered s (adds.out.trans settled.out) f.ticket r 0 is (settled.handed.subset h)
  have fault : ∀ i, listFault (byteCapacity s f.clip) f.count list = some i → x = (closeFetch s f).reply f.ticket .range
      [item1 0, item1 i] := fun i hi => hx.symm.trans (endFetch_fault hi)
  have refused : ∀ i, listFault (byteCapacity s f.clip) f.count list = some i →
      Answered s t f.ticket.kind f.ticket.tag .range 0 [item1 0, item1 i] := fun i hi =>
    answered _ _ (by rw [fault i hi]; exact handed_reply _ _ _ _)
  refine ⟨fun b hb hl => ?_, fun b i hb hl => refused i (by rw [hb]; exact hl), fun hb => refused 64 (by rw [hb]; rfl), taken,
    fun hno => ?_⟩
  · subst hb
    refine answered .ok _ ?_
    rw [← hx, endFetch_ok hl hn]
    exact handed_reply _ _ _ _
  · obtain ⟨s0, rfl⟩ := stays hno
    have e := endEvent_ends s0 w
    replace closes := closes s0
    generalize endEvent s0 w = t at e closes
    have stands : ∀ i, listFault (byteCapacity s f.clip) f.count list = some i → Frame { map := true } s t ∧
        (∀ k, t.clip k = s.clip k) ∧ t.map.serial = s.map.serial := fun i hi =>
      endFetch_stands (w := w) hi (by rw [hx]; exact settled) e
    have filled : ∀ b, list = some b → (decodeList f.count b).findIdx? (badListEntry (byteCapacity s f.clip)) = none → _ :=
      fun b hb hl => endFetch_fills (w := w) (b := b) hl hn (by rw [← hb, hx]; exact settled) e (by rw [← hb, hx]; exact closes)
    refine ⟨by rw [e.map, settled.map, fetch], e.head.trans head, fun k hk => ?_, fun b hb hl => ?_, fun b i hb hl => ?_, fun hb => ?_⟩
    · cases hl : listFault (byteCapacity s f.clip) f.count list with
      | some i => exact (stands i hl).2.1 k
      | none =>
        cases list with
        | none => cases hl
        | some b => rw [(filled b rfl hl).clip, slotWritten_clip, if_neg hk]; rfl
    · have g := filled b hb hl
      refine ⟨g.frame, g.handed, ?_, fun j hj => ?_, by rw [g.map]; rfl⟩
      · rw [g.clip, slotWritten_slot, if_pos ⟨rfl, rfl⟩]; rfl
      · rw [g.clip, slotWritten_slot, if_neg (fun h => hj h.2)]; rfl
    · obtain ⟨frame, clip, serial⟩ := stands i (by rw [hb]; exact hl)
      exact ⟨frame, clip _, serial.trans hn⟩
    · obtain ⟨frame, clip, serial⟩ := stands 64 (by rw [hb]; rfl)
      exact ⟨frame, clip _, serial.trans hn⟩

end Sys2Proof.Machine

/-! SUPPORT. CLIP_AMEND (R9): what it touches, and how each channel bound to the clip meets the change of length and of growing
(R65, R66). -/

namespace Sys2Proof.Machine

/-! ## What the change of length and of growing touches -/

section
variable {w : Touched}

theorem applyCourse_does (s : State) (c : Nat) (h : w.chans c) : Does w s (applyCourse s c) := by
  unfold applyCourse
  split
  · exact (Does.reply _ _ _ _).trans (Does.modChan _ _ _ (.inl h))
  · exact Does.refl s

theorem endPlay_does (s : State) (c : Nat) (p : Int) (h : w.chans c) : Does w s (endPlay s c p) :=
  (applyCourse_does s c h).trans (Does.modChan _ _ _ (.inl h))

theorem recompute_does (s : State) (c : Nat) (k : Recompute) (n : Word32) : Does w s (recompute s c k n) :=
  (recompute_follows s c k n).does

theorem rangeRunning_does (s : State) (c i l : Nat) (h : w.chans c) : Does w s (rangeRunning s c i l) := by
  have shown : ∀ s1 : State, Does w s1 (recompute (s1.modChan c (fun ch => ch.withRange i l)) c .trim (s.chan c).dueIndex) :=
    fun s1 => (Does.modChan s1 c _ (.inl h)).trans (recompute_does _ _ _ _)
  unfold rangeRunning
  dsimp only
  split
  · exact ((decideRevoke_does _ _ _ _).trans (shown _)).trans (recompute_does _ _ _ _)
  · exact shown s

theorem rangeEnds_does (s : State) (c i l : Nat) (h : w.chans c) : Does w s (rangeEnds s c i l) :=
  (((revokeFrom_does _ _ _ _).trans (Does.modChan _ c _ (.inl h))).trans (endPlay_does _ _ _ h)).trans (recompute_does _ _ _ _)

theorem lengthChanged_does (n : Nat) (s : State) (c : Nat) (h : w.chans c) : Does w s (lengthChanged n s c) := by
  unfold lengthChanged
  dsimp only
  split
  · exact (rangeEnds_does _ _ _ _ h).ite (rangeRunning_does _ _ _ _ h)
  · exact (Does.modChan s c _ (.inl h)).trans (recompute_does _ _ _ _)

theorem growthEnded_does (s : State) (c : Nat) (h : w.chans c) : Does w s (growthEnded s c) := by
  unfold growthEnded
  dsimp only
  exact (Does.refl s).ite ((((revokeFrom_does _ _ _ _).trans (endPlay_does _ _ _ h)).trans (recompute_does _ _ _ _)).ite
    ((Does.modChan s c _ (.inl h)).trans (recompute_does _ _ _ _)))

theorem extendOne_does {s t : State} {c : Nat} {ch : Channel} (h : extendOne s c ch = some t) : Does w s t := by
  unfold extendOne at h
  split at h
  · obtain ⟨d, -, rfl⟩ := Option.map_eq_some_iff.1 h
    exact (setList_follows _ _ _).does
  · cases h

theorem extendFor_does (c n : Nat) (s : State) : Does w s (extendFor c n s) := by
  induction n generalizing s with
  | zero => exact Does.refl s
  | succ n ih =>
    unfold extendFor
    split
    · rename_i t ht
      exact (extendOne_does ht).trans (ih t)
    · exact Does.refl s

theorem growthBegan_does (s : State) (c : Nat) (h : w.chans c) : Does w s (growthBegan s c) :=
  (extendFor_does _ _ _).trans (Does.modChan _ c _ (.inl h))

end

/-! ## The amendment in its parts -/

/-- The state once the new length has reached the clip and its channels. -/
def lengthMet (s : State) (a : ClipAmendArgs) : State :=
  if a.length = (s.clip a.clip).length then amendLength s a
  else (boundChannels s a.clip).foldl (lengthChanged a.length) (amendLength s a)

/-- The state once the growing has reached the clip, where it is set the channels too. -/
def growthMet (s : State) (a : ClipAmendArgs) : State :=
  amendGrowing (if !(s.clip a.clip).growing ∧ a.growing then (boundChannels s a.clip).foldl growthBegan (lengthMet s a)
    else lengthMet s a) a

theorem amendClip_eq (s : State) (a : ClipAmendArgs) : amendClip s a =
    if (s.clip a.clip).growing ∧ !a.growing then (boundChannels s a.clip).foldl growthEnded (growthMet s a)
    else growthMet s a := rfl

theorem lengthMet_map (s : State) (a : ClipAmendArgs) : (lengthMet s a).map = (amendLength s a).map := by
  unfold lengthMet
  split
  · rfl
  · exact (Acts.each (lengthChanged_acts a.length) _ _).map

/-- The map an amendment leaves goes by the map with the new length alone. -/
theorem growthMet_map (s : State) (a : ClipAmendArgs) : (growthMet s a).map = (amendGrowing (amendLength s a) a).map := by
  have of_map : ∀ y : State, y.map = (amendLength s a).map → (amendGrowing y a).map = (amendGrowing (amendLength s a) a).map :=
    fun y hy => by
      unfold amendGrowing State.setClip State.clip
      rw [hy]
  unfold growthMet
  refine of_map _ ?_
  split
  · exact ((Acts.each growthBegan_acts _ _).map).trans (lengthMet_map s a)
  · exact lengthMet_map s a

theorem amendClip_map (s : State) (a : ClipAmendArgs) : (amendClip s a).map = (amendGrowing (amendLength s a) a).map := by
  rw [amendClip_eq, ← growthMet_map]
  split
  · exact (Acts.each growthEnded_acts _ _).map
  · rfl

theorem amended_clip (s : State) (a : ClipAmendArgs) (k : Nat) : (amendGrowing (amendLength s a) a).clip k =
    if k = a.clip then { s.clip a.clip with growing := a.growing, length := a.length, cookie := a.cookie } else s.clip k := by
  unfold amendGrowing amendLength
  rw [State.clip_setClip, State.clip_setClip, if_pos rfl]
  split
  · rfl
  · rename_i h
    rw [State.clip_setClip, if_neg h]

theorem amendClip_clip (s : State) (a : ClipAmendArgs) (k : Nat) : (amendClip s a).clip k =
    if k = a.clip then { s.clip a.clip with growing := a.growing, length := a.length, cookie := a.cookie } else s.clip k := by
  rw [← amended_clip]
  unfold State.clip
  rw [amendClip_map]

theorem amendClip_does {w : Touched} (s : State) (a : ClipAmendArgs) (hm : w.map = true)
    (hc : ∀ c ∈ boundChannels s a.clip, w.chans c) : Does w s (amendClip s a) := by
  have each : ∀ {f : State → Nat → State}, (∀ s c, w.chans c → Does w s (f s c)) → ∀ s', Does w s'
      ((boundChannels s a.clip).foldl f s') := fun hf s' => Does.foldl (fun s c h => hf s c (hc c h)) s'
  have length : Does w s (lengthMet s a) :=
    (Does.setClip s _ _ hm).ite ((Does.setClip s _ _ hm).trans (each (fun s c h => lengthChanged_does _ s c h) _))
  have growth : Does w s (growthMet s a) :=
    ((length.trans (each growthBegan_does _)).ite length).trans (Does.setClip _ _ _ hm)
  rw [amendClip_eq]
  exact (growth.trans (each growthEnded_does _)).ite growth

theorem doClipAmend_ok {s : State} {a : ClipAmendArgs} (t : Ticket) (h1 : 1 ≤ a.clip) (h2 : a.clip ≤ 4095)
    (hs : (s.clip a.clip).state = .live) (hl : a.length ≤ 1048576) : doClipAmend a t s =
      (amendClip s a).reply t .ok [itemFlag (s.clip a.clip).growing, item4 (s.clip a.clip).length] := by
  have hb : badClip s a.clip = false := badClip_eq_false.2 ⟨h1, h2, by rw [hs]; decide⟩
  unfold doClipAmend
  dsimp only
  rw [if_neg (by rw [hb]; decide), if_neg (by simp [hs]), if_neg (by simp only [Config.maxLength]; omega)]

/-! ## What stands of one channel through acts on others -/

/-- A channel's record but for its list, and its ring, stand; so do the time and the outputs, and answers are only handed over. -/
structure Stays (s t : State) (c : Nat) : Prop where
  bare : (t.chan c).bare = (s.chan c).bare
  ring : t.ring c = s.ring c
  now : t.now = s.now
  handed : s.handed <+: t.handed

theorem Stays.trans {s t u : State} {c : Nat} (a : Stays s t c) (b : Stays t u c) : Stays s u c :=
  ⟨b.bare.trans a.bare, b.ring.trans a.ring, b.now.trans a.now, a.handed.trans b.handed⟩

theorem Stays.refl (s : State) (c : Nat) : Stays s s c := ⟨rfl, rfl, rfl, List.prefix_rfl⟩

theorem Acts.stays {S : Nat → Prop} {s t : State} (a : Acts S s t) {c : Nat} (h : ¬S c) : Stays s t c :=
  ⟨Channel.bare_of_still (a.chans c h), a.rings c h, a.now, a.handed⟩

theorem recompute_stays (s : State) (c : Nat) (k : Recompute) (n : Word32) (i : Nat) : Stays s (recompute s c k n) i :=
  ⟨recompute_bare s c k n i, recompute_ring s c k n i, (recompute_acts s c k n).now, (recompute_acts s c k n).handed⟩

/-- A change of a channel's list, or of `listStands`. -/
theorem modChan_stays (s : State) (c : Nat) (f : Channel → Channel) (i : Nat) (h : (f (s.chan c)).bare = (s.chan c).bare) :
    Stays s (s.modChan c f) i := ⟨modChan_bare h i, rfl, rfl, List.prefix_rfl⟩

theorem extendFor_stays (c n : Nat) (s : State) (i : Nat) : Stays s (extendFor c n s) i := by
  induction n generalizing s with
  | zero => exact Stays.refl s i
  | succ n ih =>
    unfold extendFor
    split
    · rename_i t ht
      refine Stays.trans ?_ (ih t)
      unfold extendOne at ht
      split at ht
      · obtain ⟨d, -, rfl⟩ := Option.map_eq_some_iff.1 ht
        exact modChan_stays s c _ i rfl
      · cases ht
    · exact Stays.refl s i

theorem growthBegan_stays (s : State) (c i : Nat) : Stays s (growthBegan s c) i :=
  (extendFor_stays c _ s i).trans (modChan_stays _ c _ i rfl)

theorem Stays.foldl {f : State → Nat → State} {i : Nat} (h : ∀ s c, Stays s (f s c) i) (l : List Nat) (s : State) :
    Stays s (l.foldl f s) i := by
  induction l generalizing s with
  | nil => exact Stays.refl s i
  | cons c l ih => exact (h s c).trans (ih _)

/-- Growing set leaves every channel but its list. -/
theorem growthMet_stays (s : State) (a : ClipAmendArgs) (i : Nat) : Stays (lengthMet s a) (growthMet s a) i := by
  unfold growthMet
  have grown : ∀ y, Stays y (amendGrowing y a) i := fun y => ⟨rfl, rfl, rfl, List.prefix_rfl⟩
  refine Stays.trans ?_ (grown _)
  split
  · exact Stays.foldl (fun s c => growthBegan_stays s c i) _ _
  · exact Stays.refl _ _

/-- A channel's turn in a change that meets each bound channel. -/
theorem Stays.turn {f : State → Nat → State} (h : ∀ s c, Acts (· = c) s (f s c)) {s : State} {k c : Nat} (hc : c ∈ boundChannels s k)
    (y : State) : ∃ u, u.map = y.map ∧ Stays y u c ∧ Stays (f u c) ((boundChannels s k).foldl f y) c := by
  obtain ⟨u, before, after⟩ := Acts.turn h (boundChannels_nodup s k) hc y
  exact ⟨u, before.map, before.stays (fun h => h.2 rfl), after.stays (fun h => h.2 rfl)⟩

end Sys2Proof.Machine

/-! SUPPORT. A channel that leaves RUNNING without a request, from the act that ends its play to the state after the event. -/

namespace Sys2Proof.Machine

/-- Records from the due index on are revoked in `y`, with what the end of play goes by as it stands in `s`. -/
structure Revokes (s y : State) (c : Nat) : Prop where
  dueIndex : (y.chan c).dueIndex = (s.chan c).dueIndex
  speed : (y.chan c).speed = (s.chan c).speed
  course : (y.chan c).course = (s.chan c).course
  now : y.now = s.now
  revoked : (s.chan c).recordFrom (s.chan c).dueIndex = true →
    RevokeWaits s y c (s.chan c).dueIndex ∧ (y.chan c).lastRecord = (s.chan c).priorRecord
  unrevised : (s.chan c).recordFrom (s.chan c).dueIndex = false →
    (y.chan c).flags &&& ChanFlag.revised = (s.chan c).flags &&& ChanFlag.revised

/-- A channel's play has ended in `x` at 16`l`, as `PlayEnded` has it after the event. -/
structure PlayEnds (s x : State) (c l : Nat) : Prop where
  state : (x.chan c).state = .held
  pos : (x.chan c).pos = 16 * (l : Int)
  dueIndex : (x.chan c).dueIndex = (s.chan c).dueIndex
  dueTime : (x.chan c).dueTime = none
  base : (x.chan c).base = some s.now
  edge : (x.chan c).edge = false
  atEdge : (x.chan c).atEdge = false
  course : (x.chan c).course = none
  playEnd : (x.chan c).flags &&& ChanFlag.playEnd ≠ 0
  speed : (x.chan c).speed = ((s.chan c).course.map PendingCourse.speed).getD (s.chan c).speed
  answered : ∀ q, (s.chan c).course = some q → (⟨q.ticket, .ok, false, 0, speedItems q.speed q.change.toNat⟩ : Handed) ∈ x.handed
  revoked : (s.chan c).recordFrom (s.chan c).dueIndex = true →
    RevokeWaits s x c (s.chan c).dueIndex ∧ (x.chan c).lastRecord = (s.chan c).priorRecord
  unrevised : (s.chan c).recordFrom (s.chan c).dueIndex = false →
    (x.chan c).flags &&& ChanFlag.revised = (s.chan c).flags &&& ChanFlag.revised

theorem Stays.field {s t : State} {c : Nat} {β : Type} (h : Stays s t c) (f : Channel → β)
    (hf : ∀ ch : Channel, f ch.bare = f ch := by exact fun _ => rfl) : f (t.chan c) = f (s.chan c) := by
  rw [← hf, h.bare, hf]

theorem PlayEnds.stays {s x y : State} {c l : Nat} (p : PlayEnds s x c l) (h : Stays x y c) : PlayEnds s y c l where
  state := (h.field (·.state)).trans p.state
  pos := (h.field (·.pos)).trans p.pos
  dueIndex := (h.field (·.dueIndex)).trans p.dueIndex
  dueTime := (h.field (·.dueTime)).trans p.dueTime
  base := (h.field (·.base)).trans p.base
  edge := (h.field (·.edge)).trans p.edge
  atEdge := (h.field (·.atEdge)).trans p.atEdge
  course := (h.field (·.course)).trans p.course
  playEnd := by rw [h.field (·.flags)]; exact p.playEnd
  speed := (h.field (·.speed)).trans p.speed
  answered q hq := h.handed.subset (p.answered q hq)
  revoked hr := ⟨(p.revoked hr).1.stands h.ring h.bare, (h.field (·.lastRecord)).trans (p.revoked hr).2⟩
  unrevised hr := by rw [h.field (·.flags)]; exact p.unrevised hr

theorem Revokes.of_stays {s s' y : State} {c : Nat} (h : Stays s s' c) (p : Revokes s' y c) : Revokes s y c := by
  have due := h.field (·.dueIndex)
  have from' : (s'.chan c).recordFrom (s'.chan c).dueIndex = (s.chan c).recordFrom (s.chan c).dueIndex :=
    h.field (fun ch => ch.recordFrom ch.dueIndex)
  refine ⟨p.dueIndex.trans due, p.speed.trans (h.field (·.speed)), p.course.trans (h.field (·.course)), p.now.trans h.now,
    fun hr => ?_, fun hr => ?_⟩
  · obtain ⟨w, hl⟩ := p.revoked (from'.trans hr)
    exact ⟨due ▸ w.of_same h.bare h.ring, hl.trans (h.field (·.priorRecord))⟩
  · rw [p.unrevised (from'.trans hr), h.field (·.flags)]

/-- A REVOKE decided from the due index on, where records stand there. -/
theorem revokeFrom_revokes (s : State) (c : Nat) : Revokes s (revokeFrom s c (s.chan c).dueIndex true) c := by
  unfold revokeFrom
  split
  · rename_i hr
    have ch := decideRevoke_chan s c (s.chan c).dueIndex true
    refine ⟨by rw [ch]; rfl, by rw [ch]; rfl, by rw [ch]; rfl, (decideRevoke_acts s c _ _).now, fun _ => ⟨decideRevoke_waits _ _ _, ?_⟩,
      fun h => absurd (hr.symm.trans h) (by decide)⟩
    rw [ch]
    exact if_pos rfl
  · rename_i hr
    exact ⟨rfl, rfl, rfl, rfl, fun h => absurd h hr, fun _ => rfl⟩

/-- A change of the channel's range alone leaves the REVOKE. -/
theorem Revokes.withRange {s y : State} {c : Nat} (p : Revokes s y c) (i l : Nat) :
    Revokes s (y.modChan c (fun ch => ch.withRange i l)) c := by
  have chan : (y.modChan c (fun ch => ch.withRange i l)).chan c = (y.chan c).withRange i l :=
    (State.chan_modChan _ _ _ _).trans (if_pos rfl)
  refine ⟨by rw [chan]; exact p.dueIndex, by rw [chan]; exact p.speed, by rw [chan]; exact p.course, p.now, fun hr => ?_,
    fun hr => by rw [chan]; exact p.unrevised hr⟩
  obtain ⟨⟨revised, waits⟩, hl⟩ := p.revoked hr
  exact ⟨⟨by rw [chan]; exact revised, waits⟩, by rw [chan]; exact hl⟩

theorem endPlay_chan (s : State) (c : Nat) (p : Int) : (endPlay s c p).chan c = { s.chan c with
    state := .held, pos := p, dueTime := none, base := some s.now, edge := false, atEdge := false
    flags := (s.chan c).flags ||| ChanFlag.playEnd
    speed := ((s.chan c).course.map PendingCourse.speed).getD (s.chan c).speed, course := none } := by
  unfold endPlay
  rw [State.chan_modChan, if_pos rfl]
  unfold applyCourse
  cases hq : (s.chan c).course with
  | none => simp only [hq, Option.map_none, Option.getD_none]
  | some q =>
    dsimp only
    rw [State.chan_modChan, if_pos rfl]
    rfl

theorem endPlay_ring (s : State) (c : Nat) (p : Int) (i : Nat) : (endPlay s c p).ring i = s.ring i := by
  show (applyCourse s c).ring i = s.ring i
  unfold applyCourse
  split <;> rfl

/-- A pending course is answered where play ends (R60). -/
theorem endPlay_handed {s : State} {c : Nat} {q : PendingCourse} (p : Int) (h : (s.chan c).course = some q) :
    (⟨q.ticket, .ok, false, 0, speedItems q.speed q.change.toNat⟩ : Handed) ∈ (endPlay s c p).handed := by
  show _ ∈ (applyCourse s c).handed
  unfold applyCourse
  rw [h]
  exact handed_reply _ _ _ _

/-- Records revoked and play ended, the list cut to fit: the end of play of R60, R65, R66. -/
theorem Revokes.playEnds {s y : State} {c : Nat} (p : Revokes s y c) (l : Nat) (k : Recompute) (n : Word32) :
    PlayEnds s (recompute (endPlay y c (16 * (l : Int))) c k n) c l := by
  refine PlayEnds.stays ?_ (recompute_stays _ c k n c)
  have chan := endPlay_chan y c (16 * (l : Int))
  have flags : ∀ f g : BitVec 7, f &&& ChanFlag.revised = g &&& ChanFlag.revised →
      (f ||| ChanFlag.playEnd) &&& ChanFlag.revised = g &&& ChanFlag.revised := by decide
  constructor
  case state | pos | dueTime | edge | atEdge | course => rw [chan]
  case dueIndex => rw [chan]; exact p.dueIndex
  case base => rw [chan]; exact congrArg some p.now
  case playEnd =>
    rw [chan]
    exact (by decide : ∀ f : BitVec 7, (f ||| ChanFlag.playEnd) &&& ChanFlag.playEnd ≠ 0) _
  case speed => rw [chan, ← p.speed, ← p.course]
  case answered => exact fun q hq => endPlay_handed _ (p.course.trans hq)
  case revoked =>
    intro hr
    obtain ⟨⟨revised, waits⟩, hl⟩ := p.revoked hr
    refine ⟨⟨fun hz => revised ?_, fun h => by rw [endPlay_ring]; exact waits h⟩, by rw [chan]; exact hl⟩
    rw [chan] at hz
    exact (flags _ _ rfl).symm.trans hz
  case unrevised =>
    intro hr
    rw [chan]
    exact flags _ _ (p.unrevised hr)

theorem PlayEnds.of_stays {s s' x : State} {c l : Nat} (h : Stays s s' c) (p : PlayEnds s' x c l) : PlayEnds s x c l := by
  have due := h.field (·.dueIndex)
  have from' : (s'.chan c).recordFrom (s'.chan c).dueIndex = (s.chan c).recordFrom (s.chan c).dueIndex :=
    h.field (fun ch => ch.recordFrom ch.dueIndex)
  refine { p with
    dueIndex := p.dueIndex.trans due, base := by rw [p.base, h.now]
    speed := by rw [p.speed, h.field (·.course), h.field (·.speed)]
    answered := fun q hq => p.answered q ((h.field (·.course)).trans hq)
    revoked := fun hr => ?_, unrevised := fun hr => ?_ }
  · obtain ⟨w, hl⟩ := p.revoked (from'.trans hr)
    exact ⟨due ▸ w.of_same h.bare h.ring, hl.trans (h.field (·.priorRecord))⟩
  · rw [p.unrevised (from'.trans hr), h.field (·.flags)]

/-- What the end of the event leaves of a channel whose play an act has ended. -/
theorem PlayEnds.ended {s x t : State} {c l : Nat} (p : PlayEnds s x c l) (e : Ends x t) (closes : Closes x t) (ho : s.out <+: x.out) :
    PlayEnded s t c l := by
  have kept : ∀ {β : Type} (f : Channel → β), (∀ ch : Channel, f ch.kept = f ch) → f (t.chan c) = f (x.chan c) := fun f hf => by
    rw [← hf, e.chans c, hf]
  have state : (t.chan c).state = .held := by
    rcases e.state c with h | ⟨h, -⟩
    · exact h.trans p.state
    · rw [p.state] at h; cases h
  have last := (closes.late.ended c (by rw [p.state]; decide)).2
  refine
    { state := state, pos := (kept (·.pos) fun _ => rfl).trans p.pos, dueIndex := (kept (·.dueIndex) fun _ => rfl).trans p.dueIndex
      dueTime := (kept (·.dueTime) fun _ => rfl).trans p.dueTime, base := (kept (·.base) fun _ => rfl).trans p.base
      edge := (kept (·.edge) fun _ => rfl).trans p.edge, atEdge := (kept (·.atEdge) fun _ => rfl).trans p.atEdge
      course := (kept (·.course) fun _ => rfl).trans p.course, playEnd := (e.flags c).bit p.playEnd
      speed := (kept (·.speed) fun _ => rfl).trans p.speed
      answered := fun q hq => e.answers ho (p.answered q hq)
      revoked := fun hr => ⟨(p.revoked hr).1.handed closes.late (e.flags c) ho, last.trans (p.revoked hr).2⟩
      unrevised := fun hr => (e.flags c).revised.trans (p.unrevised hr) }

/-! ## Growing cleared -/

/-- A following channel RUNNING at the live edge ends play (R66). -/
theorem growthEnded_playEnds {s u : State} {c : Nat} (p : Revokes s (revokeFrom u c (u.chan c).dueIndex true) c)
    (hf : (u.chan c).follow = true) (hs : (u.chan c).state = .running) (ha : (u.chan c).atEdge = true) :
    PlayEnds s (growthEnded u c) c (u.chan c).lastFrame := by
  unfold growthEnded
  dsimp only
  rw [if_neg (by simp [hf]), if_pos ⟨hs, ha⟩]
  exact p.playEnds _ _ _

/-- A following channel whose play does not end is at the edge no more (R77). -/
theorem growthEnded_released {u : State} {c : Nat} (hf : (u.chan c).follow = true)
    (h : ¬((u.chan c).state = .running ∧ (u.chan c).atEdge = true)) :
    Stays (u.modChan c (fun ch => { ch with atEdge := false })) (growthEnded u c) c := by
  unfold growthEnded
  dsimp only
  rw [if_neg (by simp [hf]), if_neg h]
  exact recompute_stays _ _ _ _ _

/-- A channel that is not at the edge, or does not follow, plays on (R66). -/
theorem growthEnded_stays {u : State} {c : Nat} (h : (u.chan c).follow = false ∨ (u.chan c).atEdge = false) :
    Stays u (growthEnded u c) c := by
  cases hf : (u.chan c).follow with
  | false =>
    unfold growthEnded
    dsimp only
    rw [if_pos (by simp [hf])]
    exact Stays.refl u c
  | true =>
    have ha := h.resolve_left (by simp [hf])
    refine (modChan_stays u c _ c ?_).trans (growthEnded_released hf (by simp [ha]))
    rw [← ha]

end Sys2Proof.Machine

/-! SUPPORT. Growing set (R66, R83): from a quiet state each bound channel's list stands, and nothing follows from it. -/

namespace Sys2Proof.Machine

/-- Two canonical tables that read alike are one. -/
theorem twf_ext {α : Type} {d : α} [DecidableEq α] {t u : Tab α} (ht : twf d t = true) (hu : twf d u = true)
    (h : ∀ k, tget d t k = tget d u k) : t = u := by
  obtain ⟨st, nt⟩ := twf_iff.1 ht
  obtain ⟨su, nu⟩ := twf_iff.1 hu
  have mem : ∀ {t u : Tab α}, tsorted t = true → (∀ c ∈ t, c.2 ≠ d) → (∀ k, tget d t k = tget d u k) → ∀ c ∈ t, c ∈ u :=
    fun {t u} st nt h c hc => by
      have read := tget_of_mem (d := d) st hc
      have := mem_of_tget_ne (d := d) (t := u) (k := c.1) (by rw [← h, read]; exact nt c hc)
      rwa [← h, read] at this
  have rising : ∀ {t : Tab α}, tsorted t = true → t.Pairwise (fun a b => a.1 < b.1) := fun {t} => by
    induction t with
    | nil => exact fun _ => List.Pairwise.nil
    | cons c t ih => exact fun st => List.pairwise_cons.2 ⟨(tsorted_cons.1 st).1, ih (tsorted_cons.1 st).2⟩
  have : Std.Irrefl (fun a b : Nat × α => a.1 < b.1) := ⟨fun a => Nat.lt_irrefl a.1⟩
  exact (rising st).eq_of_mem_iff (rising su) fun c => ⟨mem st nt h c, mem su nu (fun k => (h k).symm) c⟩

/-! ## The turn of each channel -/

/-- An extension goes by the overload condition and by which clips grow. -/
theorem extendOne_eq_none_congr {s s' : State} {c : Nat} {ch : Channel} (ho : s'.store.overload = s.store.overload)
    (hg : (s'.clip ch.clip).growing = (s.clip ch.clip).growing) : extendOne s' c ch = none ↔ extendOne s c ch = none := by
  have course : courseOf s' ch = courseOf s ch := by unfold courseOf; rw [hg]
  have target : depthTarget s' ch = depthTarget s ch := by unfold depthTarget; rw [ho]
  have after : afterList s' ch = afterList s ch := by unfold afterList cursorOf; rw [course]
  rw [extendOne_eq_none, extendOne_eq_none, target, after]

theorem extendFor_of_full {s : State} {c n : Nat} (h : extendOne s c (s.chan c) = none) : extendFor c n s = s := by
  cases n with
  | zero => rfl
  | succ n => unfold extendFor; rw [h]

/-- A channel whose list is not to be extended only notes that it stands. -/
theorem growthBegan_of_full {s : State} {c : Nat} (h : extendOne s c (s.chan c) = none) :
    growthBegan s c = s.modChan c (fun ch => { ch with listStands := ch.state.extends }) := by
  unfold growthBegan
  rw [extendFor_of_full h]

/-- A channel of clip `h` once that clip grows: its list stands. -/
def Channel.grown (h : Nat) (ch : Channel) : Channel :=
  { ch with listStands := if ch.clip = h then ch.state.extends else ch.listStands }

theorem Channel.grown_of_bound {h : Nat} {ch : Channel} (hc : ch.clip = h) : ch.grown h = { ch with listStands := ch.state.extends } := by
  unfold Channel.grown
  rw [if_pos hc]

theorem Channel.grown_of_other {h : Nat} {ch : Channel} (hc : ch.clip ≠ h) : ch.grown h = ch := by
  unfold Channel.grown
  rw [if_neg hc]

/-- The channels of a clip, met in turn. -/
theorem growthBegan_each (l : List Nat) (hd : l.Nodup) (s : State) (full : ∀ c ∈ l, extendOne s c (s.chan c) = none)
    (hw : twf Channel.initial s.chans = true) : ∃ x, l.foldl growthBegan s = { s with chans := x } ∧ twf Channel.initial x = true ∧
      ∀ c, tget Channel.initial x c =
        if c ∈ l then { s.chan c with listStands := (s.chan c).state.extends } else s.chan c := by
  induction l generalizing s with
  | nil => exact ⟨s.chans, rfl, hw, fun c => rfl⟩
  | cons c l ih =>
    obtain ⟨hcl, hd⟩ := List.nodup_cons.1 hd
    rw [List.foldl_cons, growthBegan_of_full (full c (List.mem_cons_self ..))]
    have chan := fun i => State.chan_modChan s c i (fun ch => { ch with listStands := ch.state.extends })
    obtain ⟨x, hx, hxw, hread⟩ := ih hd (s.modChan c (fun ch => { ch with listStands := ch.state.extends })) (fun i hi => by
      rw [chan, if_neg (by rintro rfl; exact hcl hi)]
      exact (extendOne_eq_none_congr (s := s) (by rfl) (by rfl)).2 (full i (List.mem_cons_of_mem _ hi))) (twf_tset _ _ _ hw)
    refine ⟨x, hx, hxw, fun i => ?_⟩
    rw [hread, chan]
    by_cases hi : i = c
    · subst hi
      rw [if_neg hcl, if_pos rfl, if_pos (List.mem_cons_self ..)]
    · simp only [List.mem_cons, hi, false_or, if_false]

/-! ## The state at rest -/

section
variable {s x : State} {h : Nat} {m : FrameMap} (hx : x = { s with map := m, chans := tmap (fun _ => Channel.grown h) s.chans })
include hx

theorem grown_chan (h0 : h ≠ 0) (c : Nat) : x.chan c = (s.chan c).grown h := by
  rw [hx]
  exact tget_tmap _ (fun _ => Channel.grown h) _ _ (Channel.grown_of_other (ch := Channel.initial) h0.symm)

theorem grown_deadlines : deadlinesGiven x = deadlinesGiven s := by
  rw [hx]
  unfold deadlinesGiven tmap
  rw [List.flatMap_map]
  rfl

theorem grown_refresh (hr : refreshUrgency s = s) : refreshUrgency x = x := by
  have refreshed : refreshUrgency x = { refreshUrgency s with map := m, chans := x.chans } := by
    unfold refreshUrgency
    rw [grown_deadlines hx, hx]
    rfl
  rw [refreshed, hr, hx]

/-- A list that stands is not extended, and another goes by a clip that has not changed. -/
theorem grown_full (hg : ∀ k, k ≠ h → (x.clip k).growing = (s.clip k).growing) (c : Nat) {ch : Channel}
    (full : extendOne s c ch = none) : extendOne x c (ch.grown h) = none := by
  by_cases hc : ch.clip = h
  · rw [Channel.grown_of_bound hc, extendOne_eq_none]
    cases ch.state.extends <;> simp
  · rw [Channel.grown_of_other hc]
    exact (extendOne_eq_none_congr (by rw [hx]) (hg _ hc)).2 full

theorem grown_deliver (h0 : h ≠ 0) {c : Nat}
    (due : (s.chan c).state = .running → (s.chan c).entryAt (s.chan c).firstUnwritten = none ∨
      (cursorOf s (s.chan c) (s.chan c).firstUnwritten).isSome = true)
    (idle : deliverOne s c = none) : deliverOne x c = none := by
  have ring : x.ring c = s.ring c := by rw [hx]; rfl
  have entry : x.entry = s.entry := by rw [hx]; rfl
  rw [deliverOne_eq_none] at idle ⊢
  rw [grown_chan hx h0, ring]
  refine idle.imp_right fun ⟨hr, hd⟩ => ⟨hr, fun hs => ?_⟩
  have hs : (s.chan c).state = .running := hs
  have hd := deliverPeriod_eq_none.1 (hd hs)
  rw [deliverPeriod_eq_none, grown_chan hx h0, ring, entry]
  refine hd.imp_right fun hd e he p _ => ?_
  have he : (s.chan c).entryAt (s.chan c).firstUnwritten = some e := he
  obtain ⟨p', hp'⟩ := Option.isSome_iff_exists.1 ((due hs).resolve_left (by rw [he]; nofun))
  exact hd e he p' hp'

/-- From a state at rest, nothing follows from a clip's growing. -/
theorem grown_atRest (rest : AtRest s) (hw : twf Channel.initial s.chans = true) (h0 : h ≠ 0)
    (hg : ∀ k, k ≠ h → (x.clip k).growing = (s.clip k).growing)
    (due : ∀ c, (s.chan c).state = .running → (s.chan c).entryAt (s.chan c).firstUnwritten = none ∨
      (cursorOf s (s.chan c) (s.chan c).firstUnwritten).isSome = true) : AtRest x := by
  obtain ⟨hr, hs⟩ := rest
  obtain ⟨hand, load, grant, resolve, extend, cue, deliver, issue⟩ := settleStep_eq_none.1 hs
  have listed : ∀ c ∈ x.chans, (c.1, s.chan c.1) ∈ s.chans ∧ c.2 = (s.chan c.1).grown h := fun c hc => by
    rw [hx] at hc
    obtain ⟨v, hv, rfl⟩ := List.mem_map.1 hc
    have : s.chan v.1 = v.2 := tget_of_mem (twf_iff.1 hw).1 hv
    exact ⟨by rw [this]; exact hv, by rw [this]⟩
  have full : ∀ c ∈ x.chans, extendOne x c.1 (x.chan c.1) = none := fun c hc => by
    rw [grown_chan hx h0]
    exact grown_full hx hg _ (extendStep_eq_none.1 extend (c.1, s.chan c.1) (listed c hc).1)
  refine ⟨grown_refresh hx hr, settleStep_eq_none.2 ⟨?_, ?_, ?_, ?_, ?_, ?_, ?_, ?_⟩⟩
  · simp only [handStep_eq_none, handOne_eq_none, spillReserve_eq_none] at hand ⊢
    rw [hx]; exact hand
  · rw [judgeOverload_eq_none] at load ⊢
    rw [hx]; exact load
  · rw [grantHead_eq_none] at grant ⊢
    rw [hx]; exact grant
  · rw [resolveStep_eq_none] at resolve ⊢
    intro c hc
    obtain ⟨hm, he⟩ := listed c hc
    rw [he]
    exact resolve _ hm
  · exact extendStep_eq_none.2 full
  · rw [cueStep_eq_none] at cue ⊢
    intro c hc
    have hn := cueOne_eq_none.1 (cue (c.1, s.chan c.1) (listed c hc).1)
    rw [cueOne_eq_none, grown_chan hx h0]
    rintro ⟨hs, -, hl⟩
    refine hn ⟨hs, extendStep_eq_none.1 extend (c.1, s.chan c.1) (listed c hc).1, ?_⟩
    rw [hx] at hl
    exact hl
  · rw [deliverStep, firstSome_eq_none] at deliver ⊢
    intro c hc
    refine grown_deliver hx h0 (due c.1) (deliver c ?_)
    rw [hx] at hc
    exact hc
  · simp only [issueStep_eq_none, issueOne_eq_none] at issue ⊢
    rw [hx]; exact issue

end

/-! ## The end of the event -/

/-- The conditions of a channel are those shown: EDGE and MISSING (R178). -/
theorem applyChanConditions_of_same (p : Port) (t u : Tab Channel) (h : ∀ c, (tget Channel.initial u c).missing =
    (tget Channel.initial t c).missing ∧ (tget Channel.initial u c).edge = (tget Channel.initial t c).edge) :
    applyChanConditions p t u = u := by
  have bits : ∀ c, conditionBits (p.notices c) (tget Channel.initial t c) (tget Channel.initial u c) = 0 := fun c => by
    simp [conditionBits, (h c).1, (h c).2, Mode.reports_self, flagIf]
  unfold applyChanConditions
  simp only [bits, if_true]
  exact List.foldl_fixed' (fun _ => rfl) _

/-- The end of an event after a state at rest writes no channel but for the conditions, no ring and no store. -/
theorem endEvent_of_atRest (s0 : State) {s : State} (h : AtRest s) : (endEvent s0 s).chans = applyChanConditions s.port s0.chans s.chans ∧
    (endEvent s0 s).rings = s.rings ∧ (endEvent s0 s).store = s.store := by
  have read : ∀ y, (startRead y).chans = y.chans ∧ (startRead y).rings = y.rings ∧ (startRead y).store = y.store := fun y => by
    rcases startRead_eq y with h | ⟨-, h⟩ <;> rw [h] <;> exact ⟨rfl, rfl, rfl⟩
  obtain ⟨x, o, hf⟩ := finish_eq s0 s
  obtain ⟨a, v, st, o2, hw, -⟩ := writeAnswers_fold
    (sortBy (fun a b => decide (a.ticket.seq < b.ticket.seq)) (applyConditions s0 s).handed) (applyConditions s0 s)
  obtain ⟨hc, hr, hs⟩ := read (finish s0 s)
  unfold endEvent
  rw [settle_of_atRest h, hc, hr, hs, hf]
  unfold writeAnswers
  rw [hw]
  exact ⟨rfl, rfl, rfl⟩

end Sys2Proof.Machine

/-! SUPPORT. `ClipAmendStoresItsFields` (R9, R66). -/

namespace Sys2Proof.Machine

/-- What an amendment does with the channels where growing is set and the length stands: their lists stand. -/
theorem growthMet_grown {s : State} {a : ClipAmendArgs} (rest : AtRest s) (hw : twf Channel.initial s.chans = true) (h0 : a.clip ≠ 0)
    (beyond : ∀ c, 64 ≤ c → (s.chan c).clip = 0) (hg : (s.clip a.clip).growing = false) (hag : a.growing = true)
    (hl : a.length = (s.clip a.clip).length) : ∃ m, growthMet s a =
      { s with map := m, chans := tmap (fun _ => Channel.grown a.clip) s.chans } := by
  have growing : ∀ k, ((amendLength s a).clip k).growing = (s.clip k).growing := fun k => by
    unfold amendLength
    rw [State.clip_setClip]
    split
    · rename_i h; rw [h]
    · rfl
  have full : ∀ c ∈ boundChannels s a.clip, extendOne (amendLength s a) c ((amendLength s a).chan c) = none := fun c hc => by
    obtain ⟨-, hclip, -⟩ := mem_boundChannels.1 hc
    refine (extendOne_eq_none_congr (s := s) (by rfl) (growing _)).2 (extendStep_eq_none.1 (settleStep_eq_none.1 rest.2).2.2.2.2.1
      (c, s.chan c) (mem_of_tget_ne fun h => h0 ?_))
    exact hclip.symm.trans (congrArg (fun ch => ch.clip) h)
  obtain ⟨x, hx, hxw, read⟩ := growthBegan_each _ (boundChannels_nodup s a.clip) (amendLength s a) full hw
  have chans : x = tmap (fun _ => Channel.grown a.clip) s.chans := by
    refine twf_ext hxw (twf_tmap (fun _ v hv he => hv ?_) hw) fun c => ?_
    · have hclip : v.clip = 0 := congrArg (fun ch => ch.clip) he
      rwa [Channel.grown_of_other (by rw [hclip]; exact h0.symm)] at he
    · rw [read, tget_tmap _ (fun _ => Channel.grown a.clip) _ _ (Channel.grown_of_other (ch := Channel.initial) h0.symm)]
      by_cases hc : (s.chan c).clip = a.clip
      · have h64 : c < 64 := Nat.lt_of_not_le fun h => h0 (hc.symm.trans (beyond c h))
        rw [if_pos (mem_boundChannels.2 ⟨h64, hc, h0⟩)]
        exact (Channel.grown_of_bound hc).symm
      · rw [if_neg (fun h => hc (mem_boundChannels.1 h).2.1)]
        exact (Channel.grown_of_other hc).symm
  refine ⟨(amendGrowing { amendLength s a with chans := x } a).map, ?_⟩
  unfold growthMet lengthMet
  rw [if_pos hl, if_pos (by simp [hg, hag]), hx, ← chans]
  rfl

/-- Growing set, from a quiet state with the length as it was, leaves channels, rings and store (R66, R83). -/
theorem growing_stands {s t0 : State} {a : ClipAmendArgs} (q : Quiet s) (b : BindsHeld s) (h0 : a.clip ≠ 0)
    (hg : (s.clip a.clip).growing = false) (hag : a.growing = true) (hl : a.length = (s.clip a.clip).length)
    (due : ∀ c, (s.chan c).state = .running → (s.chan c).entryAt (s.chan c).firstUnwritten = none ∨
      (cursorOf s (s.chan c) (s.chan c).firstUnwritten).isSome = true) (hs0 : t0.chans = s.chans) (k : Ticket) (is : List Item)
    {t : State} (ht : t = endEvent t0 ((amendClip (beginTake s) a).reply k .ok is)) :
    (∀ c, t.chan c = { s.chan c with listStands := (t.chan c).listStands }) ∧ t.rings = s.rings ∧ t.store = s.store := by
  obtain ⟨rest, -, tables⟩ := q
  have hw : twf Channel.initial s.chans = true := tables.2.2.1
  have taken : AtRest (beginTake s) := rest.ofPort _ _
  obtain ⟨m, hm⟩ := growthMet_grown (s := beginTake s) taken hw h0 (fun c h => b.2.2 c (.inr h)) hg hag hl
  have amended : amendClip (beginTake s) a = growthMet (beginTake s) a := by
    rw [amendClip_eq, if_neg (fun h => absurd (hg.symm.trans h.1) (by decide))]
  have clip := amendClip_clip (beginTake s) a
  rw [amended, hm] at clip
  have hx : (amendClip (beginTake s) a).reply k .ok is = { (beginTake s).reply k .ok is with
      map := m, chans := tmap (fun _ => Channel.grown a.clip) s.chans } := by rw [amended, hm]; rfl
  rw [hx] at ht
  generalize hy : ({ (beginTake s).reply k .ok is with
      map := m, chans := tmap (fun _ => Channel.grown a.clip) s.chans } : State) = y at ht
  have based : AtRest ((beginTake s).reply k .ok is) := rest.ofPort _ _
  have atRest : AtRest y := grown_atRest (s := (beginTake s).reply k .ok is) (h := a.clip) (m := m) hy.symm based hw h0
    (fun k hk => by rw [← hy]; exact congrArg (fun c => c.growing) ((clip k).trans (if_neg hk))) due
  have chan : ∀ c, y.chan c = (s.chan c).grown a.clip := fun c =>
    grown_chan (s := (beginTake s).reply k .ok is) (m := m) hy.symm h0 c
  obtain ⟨hc, hr, hs⟩ := endEvent_of_atRest t0 atRest
  rw [← ht] at hc hr hs
  rw [applyChanConditions_of_same] at hc
  · have same : ∀ c, t.chan c = (s.chan c).grown a.clip := fun c => by
      rw [← chan]
      exact congrArg (fun t => tget Channel.initial t c) hc
    exact ⟨fun c => by rw [same]; rfl, by rw [hr, ← hy]; rfl, by rw [hs, ← hy]; rfl⟩
  · intro c
    rw [hs0, show tget Channel.initial y.chans c = _ from chan c]
    exact ⟨rfl, rfl⟩

/-! ## A channel through an amendment that leaves the length -/

theorem Stays.chanStands {s t : State} {c : Nat} (h : Stays s t c) : ChanStands s t c :=
  ⟨h.field Channel.kept, .inl (h.field (·.state)), by rw [h.field (·.flags)]; exact FlagsAdded.refl _ _⟩

/-- What stands of a channel before its turn in a growing that is cleared, and what it leaves after. -/
theorem amendClip_turn {s : State} {a : ClipAmendArgs} (hg : (s.clip a.clip).growing = true) (hag : a.growing = false) {c : Nat}
    (hc : c ∈ boundChannels s a.clip) : ∃ u, Stays (growthMet s a) u c ∧ Stays (growthEnded u c) (amendClip s a) c := by
  rw [amendClip_eq, if_pos (by simp [hg, hag])]
  obtain ⟨u, -, before, after⟩ := Stays.turn growthEnded_acts hc (growthMet s a)
  exact ⟨u, before, after⟩

theorem amendClip_other {s : State} {a : ClipAmendArgs} {c : Nat} (hc : c ∉ boundChannels s a.clip) :
    Stays (growthMet s a) (amendClip s a) c := by
  rw [amendClip_eq]
  split
  · exact (Acts.each growthEnded_acts _ _).stays hc
  · exact Stays.refl _ _

/-- An amendment that leaves the length leaves each channel to its change of growing. -/
theorem growthMet_same {s : State} {a : ClipAmendArgs} (hl : a.length = (s.clip a.clip).length) (c : Nat) :
    Stays s (growthMet s a) c := by
  have length : Stays s (lengthMet s a) c := by
    unfold lengthMet
    rw [if_pos hl]
    exact ⟨rfl, rfl, rfl, List.prefix_rfl⟩
  exact length.trans (growthMet_stays s a c)

theorem Stays.revokeFrom_revokes {s u : State} {c : Nat} (h : Stays s u c) :
    Revokes s (revokeFrom u c (u.chan c).dueIndex true) c := (Machine.revokeFrom_revokes u c).of_stays h

/-- Settles O24: the map goes by `amendClip_map`, growing set by `growing_stands`, growing cleared by each channel's own turn
(`amendClip_turn`). -/
theorem clipAmendStoresItsFields : Obligations.ClipAmendStoresItsFields := by
  intro s tag a hoff h1 h2 hs hl
  refine ⟨_, exec_offered hoff, ?_⟩
  have act : ownerAct (.clipAmend a) (ticketOf s (Request.clipAmend a).kind tag) (beginTake s) = _ :=
    doClipAmend_ok (s := beginTake s) (ticketOf s 17 tag) h1 h2 hs hl
  have hs0 : (takeBase s (.clipAmend a)).chans = s.chans := by unfold takeBase; rw [if_neg nofun]
  generalize takeBase s (.clipAmend a) = s0 at hs0
  generalize ownerAct (.clipAmend a) (ticketOf s (Request.clipAmend a).kind tag) (beginTake s) = x at act ⊢
  rw [beginTake_clip] at act
  have h0 := Nat.ne_of_gt h1
  have e := endEvent_ends s0 x
  have closes := endEvent_closes s0 x
  have grown := fun q b hg hag hl due => growing_stands (s := s) (t0 := s0) (a := a) q b h0 hg hag hl due hs0 (ticketOf s 17 tag)
    [itemFlag (s.clip a.clip).growing, item4 (s.clip a.clip).length] (t := endEvent s0 x) (by rw [act])
  generalize endEvent s0 x = t at e closes grown
  have bound : ∀ c, c ∈ boundChannels (beginTake s) a.clip ↔ c < 64 ∧ (s.chan c).clip = a.clip := fun c => by
    rw [mem_boundChannels]
    exact and_congr_right' (and_iff_left h0)
  have does : Does { map := true, chans := fun c => (s.chan c).clip = a.clip } s x := by
    rw [act]
    exact ((beginTake_does s).trans (amendClip_does _ a rfl (fun c hc => ((bound c).1 hc).2))).trans (Does.reply _ _ _ _)
  have clip : ∀ k, t.clip k = if k = a.clip then
      { s.clip a.clip with growing := a.growing, length := a.length, cookie := a.cookie } else s.clip k := fun k => (e.clip k).trans (by rw [act]; exact amendClip_clip (beginTake s) a k)
  have map : t.map = (amendGrowing (amendLength (beginTake s) a) a).map := e.map.trans (by rw [act]; exact amendClip_map _ _)
  have taken : ∀ c, Stays s (beginTake s) c := fun c => ⟨rfl, rfl, rfl, List.prefix_rfl⟩
  have replied : ∀ c, Stays (amendClip (beginTake s) a) x c := fun c => by rw [act]; exact ⟨rfl, rfl, rfl, ⟨[_], rfl⟩⟩
  refine ⟨?_, does.frame.ends does.now e, by rw [clip, if_pos rfl], fun k hk => by rw [clip, if_neg hk], by rw [map]; rfl,
    by rw [map]; rfl, by rw [map]; rfl, grown, fun hg hag hlen => ?_⟩
  · refine e.answers (q := ticketOf s 17 tag) does.frame.out ?_
    rw [act]
    exact handed_reply _ _ _ _
  have same : ∀ c, Stays s (growthMet (beginTake s) a) c := fun c => (taken c).trans (growthMet_same (s := beginTake s) hlen c)
  have turn : ∀ c, c < 64 → (s.chan c).clip = a.clip → ∃ u, Stays s u c ∧ Stays (growthEnded u c) x c := fun c hc hb => by
    obtain ⟨u, before, after⟩ := amendClip_turn (s := beginTake s) hg hag ((bound c).2 ⟨hc, hb⟩)
    exact ⟨u, (same c).trans before, after.trans (replied c)⟩
  refine ⟨fun c hc hb hf hr ha => ?_, fun c hc hb hf hr => ?_, fun c hc => ?_⟩
  · obtain ⟨u, before, after⟩ := turn c hc hb
    have ended := (growthEnded_playEnds before.revokeFrom_revokes ((before.field (·.follow)).trans hf)
      ((before.field (·.state)).trans hr) ((before.field (·.atEdge)).trans ha)).stays after
    rw [before.field (·.lastFrame)] at ended
    exact ended.ended e closes does.frame.out
  · obtain ⟨u, before, after⟩ := turn c hc hb
    have released := (growthEnded_released ((before.field (·.follow)).trans hf) (fun h => hr ((before.field (·.state)).symm.trans h.1))).trans after
    have chan : (u.modChan c (fun ch => { ch with atEdge := false })).chan c = { u.chan c with atEdge := false } :=
      (State.chan_modChan _ _ _ _).trans (if_pos rfl)
    have state : (x.chan c).state = (s.chan c).state := by
      rw [released.field (·.state), chan]
      exact before.field (·.state)
    refine ⟨?_, by rw [← state]; exact e.state c⟩
    rw [e.chans c, released.field Channel.kept, chan]
    exact before.field (fun ch => ({ ch with atEdge := false } : Channel).kept)
  · by_cases hb : c < 64 ∧ (s.chan c).clip = a.clip
    · obtain ⟨u, before, after⟩ := turn c hb.1 hb.2
      have stays := (before.trans (growthEnded_stays (hc.imp ((before.field (·.follow)).trans ·) ((before.field (·.atEdge)).trans ·)))).trans after
      exact stays.chanStands.trans (e.chanStands c)
    · have stays := ((same c).trans (amendClip_other (s := beginTake s) (fun h => hb ((bound c).1 h)))).trans (replied c)
      exact stays.chanStands.trans (e.chanStands c)

end Sys2Proof.Machine

/-! SUPPORT. A change of length at one channel (R47, R65): the periods whose position differs, and what the channel holds after. -/

namespace Sys2Proof.Machine

/-! ## Periods with a record ahead of the due index -/

theorem atOrAfter_iff {m n : Word32} : atOrAfter m n = true ↔ (m - n).toNat ≤ 2147483647 := by
  unfold atOrAfter later
  rw [Bool.or_eq_true, beq_iff_eq, decide_eq_true_eq]
  constructor
  · rintro (rfl | ⟨-, h⟩)
    · rw [BitVec.sub_self]; decide
    · exact h
  · intro h
    by_cases hz : (m - n).toNat = 0
    · exact .inl (by bv_omega)
    · exact .inr ⟨Nat.one_le_iff_ne_zero.2 hz, h⟩

theorem Channel.recordAhead_iff {ch : Channel} {m : Nat} : ch.recordAhead m = true ↔
    ∃ n, ch.lastRecord = some n ∧ (n - ch.dueIndex).toNat ≤ 2147483647 ∧ m ≤ (n - ch.dueIndex).toNat := by
  unfold Channel.recordAhead
  cases ch.lastRecord with
  | none => simp
  | some n =>
    dsimp only
    rw [Bool.and_eq_true, decide_eq_true_eq, atOrAfter_iff]
    simp only [periodsAfter, Option.some.injEq, exists_eq_left']

theorem Channel.recordFrom_iff {ch : Channel} {r : Word32} :
    ch.recordFrom r = true ↔ ∃ n, ch.lastRecord = some n ∧ (n - r).toNat ≤ 2147483647 := by
  unfold Channel.recordFrom
  cases ch.lastRecord with
  | none => simp
  | some n => simp only [atOrAfter_iff, Option.some.injEq, exists_eq_left']

/-- The number of periods in which a change of range is looked for: one past those with a record (R65). -/
def Channel.span (ch : Channel) : Nat := periodsAfter ch.firstUnwritten ch.dueIndex + 1

theorem Channel.recordFrom_of_ahead {ch : Channel} {m : Nat} (h : ch.recordAhead m = true) :
    ch.recordFrom (addPeriods ch.dueIndex m) = true := by
  obtain ⟨n, hn, hd, hm⟩ := Channel.recordAhead_iff.1 h
  refine Channel.recordFrom_iff.2 ⟨n, hn, ?_⟩
  unfold addPeriods
  bv_omega

theorem Channel.lt_span_of_ahead {ch : Channel} {m : Nat} (h : ch.recordAhead m = true) : m < ch.span := by
  obtain ⟨n, hn, hd, hm⟩ := Channel.recordAhead_iff.1 h
  unfold Channel.span Channel.firstUnwritten periodsAfter
  rw [hn]
  dsimp only
  rw [if_pos (atOrAfter_iff.2 hd)]
  bv_omega

/-- Within the span, a period at or before the last record period has its record ahead. -/
theorem Channel.ahead_of_recordFrom {ch : Channel} {m : Nat} (hm : m < ch.span)
    (h : ch.recordFrom (addPeriods ch.dueIndex m) = true) : ch.recordAhead m = true := by
  obtain ⟨n, hn, hd⟩ := Channel.recordFrom_iff.1 h
  refine Channel.recordAhead_iff.2 ⟨n, hn, ?_⟩
  unfold Channel.span Channel.firstUnwritten periodsAfter at hm
  unfold addPeriods at hd
  rw [hn] at hm
  dsimp only at hm
  split at hm
  · rename_i ha
    have := atOrAfter_iff.1 ha
    exact ⟨this, by bv_omega⟩
  · rename_i ha
    rw [BitVec.sub_self] at hm
    have hz : m = 0 := by simpa using hm
    subst hz
    rw [show ch.dueIndex + BitVec.ofNat 32 0 = ch.dueIndex by simp] at hd
    exact absurd (atOrAfter_iff.2 hd) ha

/-! ## The first period whose position differs -/

theorem addPeriods_zero (n : Word32) : addPeriods n 0 = n := BitVec.add_zero n

theorem addPeriods_succ (n : Word32) (m : Nat) : addPeriods n (m + 1) = addPeriods (n + 1) m := by
  unfold addPeriods
  bv_omega

/-- The position `m` periods on from a cursor that may be none. -/
def Course.posOn (k : Course) (m : Nat) (x : Option Cursor) : Option Int := x.bind (k.posAfter m)

theorem Course.posOn_zero (k : Course) (x : Option Cursor) : k.posOn 0 x = x.map Cursor.pos := by cases x <;> rfl

theorem Course.posOn_next (k : Course) (m : Nat) (x : Option Cursor) : k.posOn m (x.bind k.next) = k.posOn (m + 1) x := by
  cases x <;> rfl

/-- A difference found is that of a period looked at. -/
theorem firstDifference_differs {a b : Course} {fuel : Nat} {x y : Option Cursor} {n r : Word32}
    (h : firstDifference a b fuel x y n = some r) : ∃ m < fuel, r = addPeriods n m ∧ a.posOn m x ≠ b.posOn m y := by
  induction fuel generalizing x y n with
  | zero => cases h
  | succ fuel ih =>
    unfold firstDifference at h
    split at h
    · rename_i hne
      cases h
      exact ⟨0, Nat.succ_pos _, (addPeriods_zero _).symm, by rwa [Course.posOn_zero, Course.posOn_zero]⟩
    · obtain ⟨m, hm, rfl, hne⟩ := ih h
      exact ⟨m + 1, Nat.succ_lt_succ hm, (addPeriods_succ _ _).symm, by rwa [← Course.posOn_next, ← Course.posOn_next]⟩

/-- The first difference among the periods looked at is found. -/
theorem firstDifference_of_differs {a b : Course} {fuel m : Nat} {x y : Option Cursor} {n : Word32} (hm : m < fuel)
    (before : ∀ j < m, a.posOn j x = b.posOn j y) (differs : a.posOn m x ≠ b.posOn m y) :
    firstDifference a b fuel x y n = some (addPeriods n m) := by
  induction fuel generalizing x y n m with
  | zero => exact absurd hm (Nat.not_lt_zero m)
  | succ fuel ih =>
    unfold firstDifference
    cases m with
    | zero => rw [if_pos (by rwa [Course.posOn_zero, Course.posOn_zero] at differs), addPeriods_zero]
    | succ m =>
      have here := before 0 (Nat.succ_pos m)
      rw [Course.posOn_zero, Course.posOn_zero] at here
      rw [if_neg (fun h => h here), addPeriods_succ]
      refine ih (Nat.lt_of_succ_lt_succ hm) (fun j hj => ?_) (by rwa [Course.posOn_next, Course.posOn_next])
      rw [Course.posOn_next, Course.posOn_next]
      exact before (j + 1) (Nat.succ_lt_succ hj)

/-- A course under another range. -/
def Course.ranged (k : Course) (i l : Nat) : Course := { k with inPoint := i, lastFrame := l }

/-- The period a change of range revokes from: the first with a record whose position differs, none where none does (R65). -/
def Channel.rangeHit (ch : Channel) (k : Course) (i l : Nat) : Option Word32 :=
  (firstDifference k (k.ranged i l) ch.span (some ch.due) (some (ch.withRange i l).due) ch.dueIndex).filter ch.recordFrom

/-- What is revoked is a period with a record ahead, whose position differs. -/
theorem Channel.rangeHit_ahead {ch : Channel} {k : Course} {i l : Nat} {r : Word32} (h : ch.rangeHit k i l = some r) :
    ∃ m, ch.recordAhead m = true ∧ r = addPeriods ch.dueIndex m ∧
      k.posAfter m ch.due ≠ (k.ranged i l).posAfter m (ch.withRange i l).due := by
  obtain ⟨hd, hr⟩ := Option.filter_eq_some_iff.1 h
  obtain ⟨m, hm, rfl, hne⟩ := firstDifference_differs hd
  exact ⟨m, Channel.ahead_of_recordFrom hm hr, rfl, hne⟩

theorem Channel.rangeHit_of_differs {ch : Channel} {k : Course} {i l m : Nat} (ahead : ch.recordAhead m = true)
    (before : ∀ j < m, k.posAfter j ch.due = (k.ranged i l).posAfter j (ch.withRange i l).due)
    (differs : k.posAfter m ch.due ≠ (k.ranged i l).posAfter m (ch.withRange i l).due) :
    ch.rangeHit k i l = some (addPeriods ch.dueIndex m) :=
  Option.filter_eq_some_iff.2 ⟨firstDifference_of_differs (Channel.lt_span_of_ahead ahead) before differs,
    Channel.recordFrom_of_ahead ahead⟩

theorem Channel.rangeHit_of_same {ch : Channel} {k : Course} {i l : Nat} (h : ∀ m, ch.recordAhead m = true →
    k.posAfter m ch.due = (k.ranged i l).posAfter m (ch.withRange i l).due) : ch.rangeHit k i l = none := by
  rw [Option.eq_none_iff_forall_ne_some]
  intro r hr
  obtain ⟨m, ahead, -, hne⟩ := Channel.rangeHit_ahead hr
  exact hne (h m ahead)

end Sys2Proof.Machine

/-! SUPPORT. What a change of length, and a growing cleared beside it, leave of one channel (R65, R66). -/

namespace Sys2Proof.Machine

/-! ## A RUNNING channel under a new range -/

/-- A channel record without what a REVOKE writes of it. -/
def Channel.unrevoked (ch : Channel) : Channel := { ch.bare with lastRecord := none, flags := 0 }

/-- A RUNNING channel `c` of `s` runs on in `v` under a new range, a REVOKE of `hit` decided. -/
structure RunsOn (s v : State) (c i l : Nat) (hit : Option Word32) : Prop where
  record : (v.chan c).unrevoked = ((s.chan c).withRange i l).unrevoked
  now : v.now = s.now
  revoked : ∀ r, hit = some r → RevokeWaits s v c r ∧
    (v.chan c).lastRecord = if r = (s.chan c).dueIndex then (s.chan c).priorRecord else some (r - 1)
  unrevoked : hit = none → (v.chan c).lastRecord = (s.chan c).lastRecord ∧ v.ring c = s.ring c ∧
    (v.chan c).flags &&& ChanFlag.revised = (s.chan c).flags &&& ChanFlag.revised

section
variable {s v : State} {c i l : Nat} {hit : Option Word32}

theorem RunsOn.field {β : Type} (h : RunsOn s v c i l hit) (f : Channel → β)
    (hf : ∀ ch : Channel, f ch.unrevoked = f ch := by exact fun _ => rfl) : f (v.chan c) = f ((s.chan c).withRange i l) := by
  rw [← hf, h.record, hf]

theorem RunsOn.stays {v' : State} (h : RunsOn s v c i l hit) (st : Stays v v' c) : RunsOn s v' c i l hit where
  record := (st.field Channel.unrevoked).trans h.record
  now := st.now.trans h.now
  revoked r hr := ⟨(h.revoked r hr).1.stands st.ring st.bare, (st.field (·.lastRecord)).trans (h.revoked r hr).2⟩
  unrevoked hn := by
    rw [st.field (·.lastRecord), st.ring, st.field (·.flags)]
    exact h.unrevoked hn

theorem RunsOn.of_stays {s' : State} (st : Stays s s' c) (h : RunsOn s' v c i l hit) : RunsOn s v c i l hit where
  record := h.record.trans (st.field (fun ch => (ch.withRange i l).unrevoked))
  now := h.now.trans st.now
  revoked r hr := by
    rw [← st.field (·.dueIndex), ← st.field (·.priorRecord)]
    exact ⟨(h.revoked r hr).1.of_same st.bare st.ring, (h.revoked r hr).2⟩
  unrevoked hn := by
    rw [← st.field (·.lastRecord), ← st.ring, ← st.field (·.flags)]
    exact h.unrevoked hn

/-- Where play then ends at the due index, whose own position stands, the REVOKE of the due index is the earlier one (R63). -/
theorem RunsOn.revokes (h : RunsOn s v c i l hit)
    (ahead : ∀ r, hit = some r → ∃ m, 0 < m ∧ (s.chan c).recordAhead m = true ∧ r = addPeriods (s.chan c).dueIndex m) :
    Revokes s (revokeFrom v c (v.chan c).dueIndex true) c := by
  have due : (v.chan c).dueIndex = (s.chan c).dueIndex := h.field (·.dueIndex)
  have prior : (v.chan c).priorRecord = (s.chan c).priorRecord := h.field (·.priorRecord)
  have at' : (v.chan c).revokeAt (s.chan c).dueIndex = (s.chan c).revokeAt (s.chan c).dueIndex :=
    h.field (fun ch => ch.revokeAt (s.chan c).dueIndex)
  have from' : (v.chan c).recordFrom (s.chan c).dueIndex = (s.chan c).recordFrom (s.chan c).dueIndex := by
    cases hh : hit with
    | none => unfold Channel.recordFrom; rw [(h.unrevoked hh).1]
    | some r =>
      obtain ⟨m, hm, ha, rfl⟩ := ahead r hh
      obtain ⟨n, hn, hd, hle⟩ := Channel.recordAhead_iff.1 ha
      have last := (h.revoked _ hh).2
      have later : addPeriods (s.chan c).dueIndex m - 1 - (s.chan c).dueIndex = BitVec.ofNat 32 (m - 1) := by
        unfold addPeriods
        bv_omega
      rw [if_neg (by unfold addPeriods; bv_omega)] at last
      rw [Bool.eq_iff_iff, Channel.recordFrom_iff, Channel.recordFrom_iff]
      refine ⟨fun _ => ⟨n, hn, hd⟩, fun _ => ⟨_, last, ?_⟩⟩
      rw [later, BitVec.toNat_ofNat]
      omega
  have own := revokeFrom_revokes v c
  refine ⟨own.dueIndex.trans due, own.speed.trans (h.field (·.speed)), own.course.trans (h.field (·.course)), own.now.trans h.now,
    fun hr => ?_, fun hr => ?_⟩
  · obtain ⟨w, hl⟩ := own.revoked (by rw [due]; exact from'.trans hr)
    refine ⟨⟨w.revised, fun hn => ?_⟩, hl.trans prior⟩
    cases hh : hit with
    | none =>
      have waits := w.waits (by rw [(h.unrevoked hh).2.1]; exact hn)
      rw [due, at', (h.unrevoked hh).2.1] at waits
      rw [due]
      exact waits
    | some r =>
      obtain ⟨m, hm, ha, rfl⟩ := ahead r hh
      obtain ⟨n, -, hd, hle⟩ := Channel.recordAhead_iff.1 ha
      obtain ⟨hv, area, slot, gap⟩ := (h.revoked _ hh).1.waits hn
      have sooner : later (addPeriods (s.chan c).dueIndex m) (s.chan c).dueIndex = true := by
        unfold later addPeriods
        rw [decide_eq_true_eq]
        bv_omega
      unfold revokeFrom
      rw [due, if_pos (from'.trans hr), decideRevoke_ring, hv, at']
      refine ⟨congrArg some ?_, area, slot, gap⟩
      exact if_pos sooner
  · cases hh : hit with
    | none =>
      rw [own.unrevised (by rw [due]; exact from'.trans hr)]
      exact (h.unrevoked hh).2.2
    | some r =>
      obtain ⟨m, -, ha, -⟩ := ahead r hh
      obtain ⟨n, hn, hd, -⟩ := Channel.recordAhead_iff.1 ha
      rw [Channel.recordFrom_iff.2 ⟨n, hn, hd⟩] at hr
      cases hr

end

theorem modChan_withRange_chan (s : State) (c i l : Nat) :
    (s.modChan c (fun ch => ch.withRange i l)).chan c = (s.chan c).withRange i l := (State.chan_modChan _ _ _ _).trans (if_pos rfl)

/-- A change of range that revokes nothing. -/
theorem rangeRunning_of_none {s : State} {c i l : Nat} (h : (s.chan c).rangeHit (courseOf s (s.chan c)) i l = none) :
    rangeRunning s c i l = recompute (s.modChan c (fun ch => ch.withRange i l)) c .trim (s.chan c).dueIndex := by
  have hit : (firstDifference (courseOf s (s.chan c)) (courseOf s ((s.chan c).withRange i l))
      (periodsAfter (s.chan c).firstUnwritten (s.chan c).dueIndex + 1) (some (s.chan c).due) (some ((s.chan c).withRange i l).due)
      (s.chan c).dueIndex).filter (s.chan c).recordFrom = none := h
  unfold rangeRunning
  dsimp only
  rw [hit]

/-- A change of range that revokes from a period. -/
theorem rangeRunning_of_some {s : State} {c i l : Nat} {r : Word32}
    (h : (s.chan c).rangeHit (courseOf s (s.chan c)) i l = some r) : rangeRunning s c i l =
      recompute (recompute ((decideRevoke s c r true).modChan c (fun ch => ch.withRange i l)) c .trim (s.chan c).dueIndex) c
        .afterRevoke r := by
  have hit : (firstDifference (courseOf s (s.chan c)) (courseOf s ((s.chan c).withRange i l))
      (periodsAfter (s.chan c).firstUnwritten (s.chan c).dueIndex + 1) (some (s.chan c).due) (some ((s.chan c).withRange i l).due)
      (s.chan c).dueIndex).filter (s.chan c).recordFrom = some r := h
  unfold rangeRunning
  dsimp only
  rw [hit]

theorem rangeRunning_runsOn (s : State) (c i l : Nat) :
    RunsOn s (rangeRunning s c i l) c i l ((s.chan c).rangeHit (courseOf s (s.chan c)) i l) := by
  cases hh : (s.chan c).rangeHit (courseOf s (s.chan c)) i l with
  | none =>
    rw [rangeRunning_of_none hh]
    refine RunsOn.stays (v := s.modChan c (fun ch => ch.withRange i l)) ⟨?_, rfl, nofun, fun _ => ⟨?_, rfl, ?_⟩⟩ (recompute_stays _ _ _ _ _)
    · rw [modChan_withRange_chan]
    · rw [modChan_withRange_chan]; rfl
    · rw [modChan_withRange_chan]; rfl
  | some r =>
    rw [rangeRunning_of_some hh]
    have chan : ((decideRevoke s c r true).modChan c (fun ch => ch.withRange i l)).chan c = _ :=
      (modChan_withRange_chan _ c i l).trans (congrArg (fun ch => ch.withRange i l) (decideRevoke_chan s c r true))
    refine RunsOn.stays (v := (decideRevoke s c r true).modChan c (fun ch => ch.withRange i l))
      ⟨by rw [chan]; rfl, (decideRevoke_acts s c r true).now, fun r' hr => ?_, nofun⟩
      ((recompute_stays _ _ _ _ _).trans (recompute_stays _ _ _ _ _))
    obtain rfl := Option.some.inj hr
    obtain ⟨revised, waits⟩ := decideRevoke_waits s c r
    rw [decideRevoke_chan] at revised
    exact ⟨⟨by rw [chan]; exact revised, waits⟩, by rw [chan]; rfl⟩

/-! ## A change of length at a channel -/

/-- The range after a change of length (R47). -/
theorem rangeAfter_range (ch : Channel) (n : Nat) :
    (rangeAfter ch n).2 = (if ch.follow then n - 1 else min ch.lastFrame (n - 1)) ∧
      (rangeAfter ch n).1 = min ch.inPoint (rangeAfter ch n).2 := by
  unfold rangeAfter
  by_cases h : n = 0
  · subst h
    simp
  · rw [if_neg h]
    exact ⟨rfl, rfl⟩

theorem lengthChanged_ends {s : State} {c n : Nat} (hs : (s.chan c).state = .running)
    (h : n = 0 ∨ (s.chan c).pos > 16 * ((rangeAfter (s.chan c) n).2 : Int) + 15) :
    PlayEnds s (lengthChanged n s c) c (rangeAfter (s.chan c) n).2 := by
  unfold lengthChanged
  dsimp only
  rw [if_pos hs, if_pos h]
  exact ((revokeFrom_revokes s c).withRange _ _).playEnds _ _ _

theorem lengthChanged_runsOn {s : State} {c n : Nat} (hs : (s.chan c).state = .running) (h0 : n ≠ 0)
    (h : (s.chan c).pos ≤ 16 * ((rangeAfter (s.chan c) n).2 : Int) + 15) :
    RunsOn s (lengthChanged n s c) c (rangeAfter (s.chan c) n).1 (rangeAfter (s.chan c) n).2
      ((s.chan c).rangeHit (courseOf s (s.chan c)) (rangeAfter (s.chan c) n).1 (rangeAfter (s.chan c) n).2) := by
  unfold lengthChanged
  dsimp only
  rw [if_pos hs, if_neg (by omega)]
  exact rangeRunning_runsOn _ _ _ _

theorem lengthChanged_rests {s : State} {c n : Nat} (hs : (s.chan c).state ≠ .running) :
    Stays (s.modChan c (fun ch => ch.withRange (rangeAfter (s.chan c) n).1 (rangeAfter (s.chan c) n).2)) (lengthChanged n s c) c := by
  unfold lengthChanged
  dsimp only
  rw [if_neg hs]
  exact recompute_stays _ _ _ _ _

/-- The range of a channel record. -/
def Channel.range (ch : Channel) : Nat × Nat := (ch.inPoint, ch.lastFrame)

theorem revokeFrom_range (s : State) (c : Nat) (r : Word32) (b : Bool) : ((revokeFrom s c r b).chan c).range = (s.chan c).range := by
  unfold revokeFrom
  split
  · rw [decideRevoke_chan]; rfl
  · rfl

theorem endPlay_range (s : State) (c : Nat) (p : Int) : ((endPlay s c p).chan c).range = (s.chan c).range := by
  rw [endPlay_chan]; rfl

theorem lengthChanged_range (n : Nat) (s : State) (c : Nat) : ((lengthChanged n s c).chan c).range = rangeAfter (s.chan c) n := by
  by_cases hs : (s.chan c).state = .running
  · by_cases h : n = 0 ∨ (s.chan c).pos > 16 * ((rangeAfter (s.chan c) n).2 : Int) + 15
    · unfold lengthChanged
      dsimp only
      rw [if_pos hs, if_pos h]
      unfold rangeEnds
      rw [(recompute_stays _ _ _ _ _).field Channel.range, endPlay_range, modChan_withRange_chan]
      rfl
    · exact (lengthChanged_runsOn hs (fun h0 => h (.inl h0)) (Int.not_lt.1 fun hp => h (.inr hp))).field Channel.range
  · rw [(lengthChanged_rests hs).field Channel.range, modChan_withRange_chan]
    rfl

theorem growthEnded_range (s : State) (c : Nat) : ((growthEnded s c).chan c).range = (s.chan c).range := by
  unfold growthEnded
  dsimp only
  split
  · rfl
  · split
    · rw [(recompute_stays _ _ _ _ _).field Channel.range, endPlay_range, revokeFrom_range]
    · rw [(recompute_stays _ _ _ _ _).field Channel.range, State.chan_modChan, if_pos rfl]
      rfl

/-! ## The whole amendment at a channel -/

/-- A channel's part of a growing that is cleared, or not. -/
def growthTurn (cleared : Bool) (s : State) (c : Nat) : State := if cleared then growthEnded s c else s

/-- An amendment's growing is cleared. -/
def growthCleared (s : State) (a : ClipAmendArgs) : Bool := (s.clip a.clip).growing && !a.growing

/-- Each bound channel meets the change of length and then the change of growing, with nothing of it changed between. -/
theorem amendClip_meets {s : State} {a : ClipAmendArgs} (hl : a.length ≠ (s.clip a.clip).length) {c : Nat}
    (hc : c ∈ boundChannels s a.clip) : ∃ u v, u.map = (amendLength s a).map ∧ Stays s u c ∧ Stays (lengthChanged a.length u c) v c ∧
      Stays (growthTurn (growthCleared s a) v c) (amendClip s a) c := by
  have lengthened : Stays s (amendLength s a) c := ⟨rfl, rfl, rfl, List.prefix_rfl⟩
  obtain ⟨u, hm, before, after⟩ := Stays.turn (lengthChanged_acts a.length) hc (amendLength s a)
  have met : Stays (lengthChanged a.length u c) (growthMet s a) c := by
    have := growthMet_stays s a c
    unfold lengthMet at this
    rw [if_neg hl] at this
    exact after.trans this
  cases hcl : growthCleared s a with
  | false =>
    refine ⟨u, growthMet s a, hm, lengthened.trans before, met, ?_⟩
    rw [amendClip_eq, if_neg (by unfold growthCleared at hcl; simpa using hcl)]
    exact Stays.refl _ c
  | true =>
    unfold growthCleared at hcl
    rw [Bool.and_eq_true, Bool.not_eq_true'] at hcl
    obtain ⟨v, between, last⟩ := amendClip_turn hcl.1 hcl.2 hc
    exact ⟨u, v, hm, lengthened.trans before, met.trans between, last⟩

theorem growthTurn_range (b : Bool) (s : State) (c : Nat) : ((growthTurn b s c).chan c).range = (s.chan c).range := by
  unfold growthTurn
  split
  · exact growthEnded_range s c
  · rfl

/-- A channel not at the edge is left by a change of growing. -/
theorem growthTurn_stays {b : Bool} {s : State} {c : Nat} (h : b = false ∨ (s.chan c).atEdge = false) :
    Stays s (growthTurn b s c) c := by
  unfold growthTurn
  split
  · rename_i hb
    exact growthEnded_stays (.inr (h.resolve_left (by simp [hb])))
  · exact Stays.refl s c

end Sys2Proof.Machine

/-! SUPPORT. `LengthChangeReachesChannels` (R47, R63, R65, R66): each bound channel through the amendment, case by case. -/

namespace Sys2Proof.Machine

section
variable {s x : State} {a : ClipAmendArgs} {c : Nat}

/-- A CLIP_AMEND with another length has reached channel `c` of the clip: from the state `s` before it to the state `x` its act
leaves, first the length, then the growing. -/
def Amended (s x : State) (a : ClipAmendArgs) (c : Nat) : Prop :=
  ∃ u v, (u.clip a.clip).growing = (s.clip a.clip).growing ∧ Stays s u c ∧ Stays (lengthChanged a.length u c) v c ∧
    Stays (growthTurn (growthCleared s a) v c) x c

/-- The in point and last frame an amendment leaves (R47). -/
theorem Amended.range (h : Amended s x a c) : (x.chan c).range = rangeAfter (s.chan c) a.length := by
  obtain ⟨u, v, -, before, between, after⟩ := h
  rw [after.field Channel.range, growthTurn_range, between.field Channel.range, lengthChanged_range]
  exact before.field (fun ch => rangeAfter ch a.length)

/-- A RUNNING channel whose position lies beyond the new range has ended play (R65), and a change of growing leaves it. -/
theorem Amended.ends (h : Amended s x a c) (hs : (s.chan c).state = .running)
    (hp : a.length = 0 ∨ (s.chan c).pos > 16 * ((rangeAfter (s.chan c) a.length).2 : Int) + 15) :
    PlayEnds s x c (rangeAfter (s.chan c) a.length).2 := by
  obtain ⟨u, v, -, before, between, after⟩ := h
  have range : rangeAfter (u.chan c) a.length = rangeAfter (s.chan c) a.length := before.field (fun ch => rangeAfter ch a.length)
  have ended := ((lengthChanged_ends (n := a.length) ((before.field (·.state)).trans hs)
    (by rw [range, before.field (·.pos)]; exact hp)).of_stays before).stays between
  rw [range] at ended
  exact (ended.stays (growthTurn_stays (.inr ended.atEdge))).stays after

/-- A channel that does not run is clamped into the new range; it stays at the edge only where R77 has it there. -/
theorem Amended.rests (h : Amended s x a c) (hs : (s.chan c).state ≠ .running) :
    (x.chan c).state = (s.chan c).state ∧
      (x.chan c).pos = clampPosition (rangeAfter (s.chan c) a.length).1 (rangeAfter (s.chan c) a.length).2 (s.chan c).pos ∧
      (x.chan c).atEdge = ((s.chan c).atEdge && (s.chan c).edgeUnder (rangeAfter (s.chan c) a.length).2 && !growthCleared s a) := by
  obtain ⟨u, v, -, before, between, after⟩ := h
  have ranged : ∀ {β : Type} (f : Channel → β), (∀ ch : Channel, f ch.bare = f ch) → f (v.chan c) =
      f ((s.chan c).withRange (rangeAfter (s.chan c) a.length).1 (rangeAfter (s.chan c) a.length).2) := fun f hf => by
    rw [between.field f hf, (lengthChanged_rests (fun h => hs ((before.field (·.state)).symm.trans h))).field f hf, modChan_withRange_chan]
    exact before.field (fun ch => f (ch.withRange (rangeAfter ch a.length).1 (rangeAfter ch a.length).2))
      (fun ch => by rw [← hf, ← hf (ch.withRange _ _)]; rfl)
  have state : (v.chan c).state = (s.chan c).state := ranged (·.state) fun _ => rfl
  have pos := ranged (·.pos) fun _ => rfl
  have edge := ranged (·.atEdge) fun _ => rfl
  have follow : (v.chan c).follow = (s.chan c).follow := ranged (·.follow) fun _ => rfl
  cases hcl : growthCleared s a with
  | false =>
    have stays := (growthTurn_stays (b := growthCleared s a) (s := v) (c := c) (.inl hcl)).trans after
    refine ⟨(stays.field (·.state)).trans state, (stays.field (·.pos)).trans pos, (stays.field (·.atEdge)).trans ?_⟩
    rw [Bool.not_false, Bool.and_true]
    exact edge
  | true =>
    rw [Bool.not_true, Bool.and_false]
    rw [hcl] at after
    cases hf : (v.chan c).follow with
    | false =>
      have stays : Stays v x c := (growthEnded_stays (.inl hf)).trans after
      refine ⟨(stays.field (·.state)).trans state, (stays.field (·.pos)).trans pos, (stays.field (·.atEdge)).trans (edge.trans ?_)⟩
      show ((s.chan c).atEdge && ((s.chan c).follow && _ && _)) = false
      rw [← follow, hf]
      simp
    | true =>
      have released := (growthEnded_released hf (fun h => hs (state.symm.trans h.1))).trans after
      have chan : (v.modChan c (fun ch => { ch with atEdge := false })).chan c = { v.chan c with atEdge := false } :=
        (State.chan_modChan _ _ _ _).trans (if_pos rfl)
      refine ⟨?_, ?_, ?_⟩
      · rw [released.field (·.state), chan]; exact state
      · rw [released.field (·.pos), chan]; exact pos
      · rw [released.field (·.atEdge), chan]

/-- A RUNNING channel whose position lies within the new range runs on under it, unless it is still at the edge where growing is
cleared: then it ends play there (R65, R66). -/
theorem Amended.runs (h : Amended s x a c) (hb : (s.chan c).clip = a.clip) (hs : (s.chan c).state = .running) (h0 : a.length ≠ 0)
    {i l : Nat} (hr : rangeAfter (s.chan c) a.length = (i, l)) (hp : (s.chan c).pos ≤ 16 * (l : Int) + 15) :
    (growthCleared s a = false ∨ ((s.chan c).withRange i l).atEdge = false →
      RunsOn s x c i l ((s.chan c).rangeHit (courseOf s (s.chan c)) i l)) ∧
    (growthCleared s a = true → ((s.chan c).withRange i l).atEdge = true → PlayEnds s x c l) := by
  obtain ⟨u, v, growing, before, between, after⟩ := h
  have range : rangeAfter (u.chan c) a.length = (i, l) := (before.field (fun ch => rangeAfter ch a.length)).trans hr
  have course : courseOf u (u.chan c) = courseOf s (s.chan c) := by
    have own : ∀ ch : Channel, ch.clip = a.clip → courseOf u ch = courseOf s ch := fun ch hc => by
      unfold courseOf
      rw [hc, growing]
    rw [own _ ((before.field (·.clip)).trans hb)]
    exact before.field (fun ch => courseOf s ch)
  have runs := lengthChanged_runsOn (n := a.length) ((before.field (·.state)).trans hs) h0
    (by rw [range, before.field (·.pos)]; exact hp)
  rw [range, course, before.field (fun ch => ch.rangeHit (courseOf s (s.chan c)) i l)] at runs
  have runs := (runs.of_stays before).stays between
  refine ⟨fun hc => (runs.stays (growthTurn_stays (hc.imp_right (runs.field (·.atEdge)).trans))).stays after, fun hc ha => ?_⟩
  rw [hc] at after
  simp only [Channel.withRange, Channel.edgeUnder, Bool.and_eq_true, beq_iff_eq] at ha
  obtain ⟨edge, ⟨follow, same⟩, pos⟩ := ha
  have ended := growthEnded_playEnds (s := s) (u := v) (c := c) (runs.revokes fun r hh => ?_) ((runs.field (·.follow)).trans follow)
    ((runs.field (·.state)).trans hs) ((runs.field (·.atEdge)).trans (by simp [Channel.withRange, Channel.edgeUnder, edge, follow, same, pos]))
  · rw [show (v.chan c).lastFrame = l from runs.field (·.lastFrame)] at ended
    exact ended.stays after
  · obtain ⟨m, ahead, rfl, differs⟩ := Channel.rangeHit_ahead hh
    refine ⟨m, Nat.pos_of_ne_zero fun hm => differs ?_, ahead, rfl⟩
    subst hm
    have low : i ≤ l := by
      have := (rangeAfter_range (s.chan c) a.length).2
      rw [hr] at this
      exact this.le.trans (Nat.min_le_right _ _)
    show some (s.chan c).pos = some (clampPosition i l (s.chan c).pos)
    rw [pos]
    unfold clampPosition clampInt
    rw [if_neg (by omega), if_neg (by omega)]

end

/-- The act of a CLIP_AMEND with another length reaches each channel of the clip. -/
theorem amendClip_amended {s : State} {a : ClipAmendArgs} (hl : a.length ≠ (s.clip a.clip).length) {c : Nat}
    (hc : c ∈ boundChannels s a.clip) : Amended s (amendClip s a) a c := by
  obtain ⟨u, v, hm, before, between, after⟩ := amendClip_meets hl hc
  refine ⟨u, v, ?_, before, between, after⟩
  unfold State.clip
  rw [hm]
  exact congrArg (fun c => c.growing) ((State.clip_setClip s a.clip a.clip _).trans (if_pos rfl))

/-- What stands of a channel that runs on to the end of the event. -/
theorem RunsOn.kept {s x t : State} {c i l : Nat} {hit : Option Word32} (h : RunsOn s x c i l hit) (e : Ends x t) {β : Type}
    (f : Channel → β) (hf : ∀ ch : Channel, f ch.kept.unrevoked = f ch := by exact fun _ => rfl) :
    f (t.chan c) = f ((s.chan c).withRange i l) := by
  rw [← hf, e.chans c, h.field (fun ch => ch.kept.unrevoked), hf]

theorem RunsOn.running {s x t : State} {c i l : Nat} {hit : Option Word32} (h : RunsOn s x c i l hit)
    (hs : (s.chan c).state = .running) (e : Ends x t) : (t.chan c).state = .running := by
  have running : (x.chan c).state = .running := (h.field (·.state)).trans hs
  rcases e.state c with h | ⟨h, -⟩
  · exact h.trans running
  · rw [running] at h; cases h

/-- Settles O25: the range is that of `rangeAfter`; a channel that does not run is clamped, one beyond the range ends play, and one
within it runs on or ends play at the edge (`Amended`), the REVOKE being that of the first period with a record that differs
(`Channel.rangeHit`). -/
theorem lengthChangeReachesChannels : Obligations.LengthChangeReachesChannels := by
  intro s tag a c hoff h1 h2 hs hl hne hc hb
  refine ⟨_, exec_offered hoff, ?_⟩
  have act : ownerAct (.clipAmend a) (ticketOf s (Request.clipAmend a).kind tag) (beginTake s) = _ :=
    doClipAmend_ok (s := beginTake s) (ticketOf s 17 tag) h1 h2 hs hl
  generalize takeBase s (.clipAmend a) = s0
  generalize ownerAct (.clipAmend a) (ticketOf s (Request.clipAmend a).kind tag) (beginTake s) = x at act ⊢
  have e := endEvent_ends s0 x
  have closes := endEvent_closes s0 x
  generalize endEvent s0 x = t at e closes
  have out : s.out <+: x.out := by
    rw [act]
    exact (((beginTake_does s).trans (amendClip_does _ a rfl (fun c hc => (mem_boundChannels.1 hc).2.1))).trans
      (Does.reply (w := { map := true, chans := fun c => (s.chan c).clip = a.clip }) _ _ _ _)).frame.out
  have amended : Amended s x a c := by
    obtain ⟨u, v, hm, before, between, after⟩ :=
      amendClip_amended (s := beginTake s) hne (mem_boundChannels.2 ⟨hc, hb, Nat.ne_of_gt h1⟩)
    exact ⟨u, v, hm, ⟨before.bare, before.ring, before.now, before.handed⟩, between, after.trans (by rw [act]; exact ⟨rfl, rfl, rfl, ⟨[_], rfl⟩⟩)⟩
  have kept : ∀ {β : Type} (f : Channel → β), (∀ ch : Channel, f ch.kept = f ch) → f (t.chan c) = f (x.chan c) := fun f hf => by
    rw [← hf, e.chans c, hf]
  have range : (t.chan c).range = rangeAfter (s.chan c) a.length := (kept Channel.range fun _ => rfl).trans amended.range
  obtain ⟨hlast, hin⟩ := rangeAfter_range (s.chan c) a.length
  have last : (t.chan c).lastFrame = (rangeAfter (s.chan c) a.length).2 := congrArg Prod.snd range
  have inp : (t.chan c).inPoint = (rangeAfter (s.chan c) a.length).1 := congrArg Prod.fst range
  refine ⟨last.trans hlast, by rw [inp, last]; exact hin, fun hr hp => ?_, fun hr => ?_, ?_⟩
  · rw [last] at hp ⊢
    exact (amended.ends hr hp).ended e closes out
  · obtain ⟨state, pos, edge⟩ := amended.rests hr
    refine ⟨by rw [inp, last]; exact (kept (·.pos) fun _ => rfl).trans pos, by rw [← state]; exact e.state c, ?_⟩
    rw [last, show (t.chan c).atEdge = (x.chan c).atEdge from kept (·.atEdge) fun _ => rfl, edge]
    unfold Channel.edgeUnder growthCleared
    simp only [Bool.and_assoc, Bool.not_and, Bool.not_not]
  · rintro old new from' hr h0 hp rfl rfl hfrom
    rw [last] at hp
    have due : ((s.chan c).withRange (t.chan c).inPoint (t.chan c).lastFrame).due = from' := by
      rw [hfrom]
      simp only [Channel.due, Channel.withRange, Channel.edgeUnder, Bool.and_assoc]
    have edge : ((s.chan c).withRange (t.chan c).inPoint (t.chan c).lastFrame).atEdge = from'.edge := by rw [← due]; rfl
    have pair : rangeAfter (s.chan c) a.length = ((t.chan c).inPoint, (t.chan c).lastFrame) := range.symm
    obtain ⟨runs, ends⟩ := amended.runs hb hr h0 pair (by rw [last]; exact hp)
    rw [edge] at runs ends
    refine ⟨fun hg hag he => (ends (by simp [growthCleared, hg, hag]) he).ended e closes out, fun hf hold => ?_, fun hq => ?_⟩
    · have moved : (t.chan c).lastFrame ≠ (s.chan c).lastFrame := by
        rw [last, hlast, if_pos hf]
        omega
      have run := runs (.inr (by rw [hfrom]; simp [moved]))
      exact ⟨run.running hr e, (run.kept e (·.edge)).trans (by simp [Channel.withRange, Channel.edgeUnder, moved]),
        (run.kept e (·.atEdge)).trans (by simp [Channel.withRange, Channel.edgeUnder, moved])⟩
    · have run := runs (hq.elim (fun h => .inl (by simp [growthCleared, h])) (Or.imp_left fun h => by simp [growthCleared, h]))
      refine ⟨run.running hr e, (run.kept e (·.pos)).trans (by rw [hfrom]; rfl), (run.kept e (·.atEdge)).trans edge,
        run.kept e (·.dueIndex), run.kept e (·.dueTime), run.kept e (·.speed), run.kept e (·.course),
        fun m ahead before differs => ?_, fun same => ?_⟩
      · rw [← due] at before differs
        exact (run.revoked _ (Channel.rangeHit_of_differs ahead before differs)).1.handed closes.late (e.flags c) out
      · rw [← due] at same
        exact (e.flags c).revised.trans (run.unrevoked (Channel.rangeHit_of_same same)).2.2

end Sys2Proof.Machine

/-! SUPPORT. Views: what VIEW_DEFINE writes at the Placement Unit (R28, R29), and the effective line count (R33). -/

namespace Sys2Proof.Machine

/-! ## VIEW_DEFINE -/

theorem Ends.view {s t : State} (e : Ends s t) (v : Nat) : t.view v = s.view v := by unfold State.view; rw [e.views]

/-- The legal shapes (R28 check 3). -/
theorem shapeFault_eq_none {h : Shape} : shapeFault h = none ↔ h.lead ≤ 65535 ∧ (1 ≤ h.lineBytes ∧ h.lineBytes ≤ 1048576) ∧
    h.firstLine ≤ 65535 ∧ (1 ≤ h.lineCount ∧ h.lineCount ≤ 8192) ∧ (h.lineStep = 1 ∨ h.lineStep = 2 ∨ h.lineStep = 4) ∧
    1 ≤ h.colBytes ∧ h.colOffset + h.colBytes ≤ h.lineBytes := by
  unfold shapeFault
  repeat' split
  all_goals simp only [reduceCtorEq, true_iff, false_iff]; omega

theorem changeView_view (s : State) (v : Nat) (b : Bool) (h : Shape) (k : Nat) :
    (changeView s v b h).view k = if k = v then { s.view v with defined := b, shape := h } else s.view k :=
  State.view_setView s v k _

theorem changeView_does (s : State) (v : Nat) (b : Bool) (h : Shape) : Does { views := true } s (changeView s v b h) :=
  (Does.setView s v { s.view v with defined := b, shape := h } rfl).trans (orphanWhere_follows _ (fun k => k.view == v)).does

section
variable {s : State} {a : ViewDefineArgs} (t : Ticket)

theorem doViewDefine_claimed (h1 : 1 ≤ a.view) (h2 : a.view ≤ 15) (hc : (s.view a.view).useCount ≠ 0) :
    doViewDefine a t s = s.reply t .badState [item1 0, item1 (s.view a.view).useCount] := by
  unfold doViewDefine
  rw [if_neg (by simp only [Config.views]; omega), if_pos hc]

theorem doViewDefine_clears (h1 : 1 ≤ a.view) (h2 : a.view ≤ 15) (hc : (s.view a.view).useCount = 0) (hclear : a.clear = true) :
    doViewDefine a t s =
      (changeView s a.view false Shape.zero).reply t .ok [itemFlag (s.view a.view).defined, item1 0] := by
  unfold doViewDefine
  rw [if_neg (by simp only [Config.views]; omega), if_neg (not_not.2 hc), if_pos hclear]

theorem doViewDefine_defines (h1 : 1 ≤ a.view) (h2 : a.view ≤ 15) (hc : (s.view a.view).useCount = 0)
    (hclear : a.clear = false) (hs : shapeFault a.shape = none) :
    doViewDefine a t s = (changeView s a.view true a.shape).reply t .ok [itemFlag (s.view a.view).defined, item1 0] := by
  unfold doViewDefine
  rw [if_neg (by simp only [Config.views]; omega), if_neg (not_not.2 hc),
    if_neg (Bool.eq_false_iff.1 hclear), hs]

/-- Whatever VIEW_DEFINE answers, the named view alone is written. -/
theorem doViewDefine_touches : Does { views := true } s (doViewDefine a t s) ∧
    ∀ v, v ≠ a.view → (doViewDefine a t s).view v = s.view v := by
  have changed : ∀ b h is, Does { views := true } s ((changeView s a.view b h).reply t .ok is) ∧
      ∀ v, v ≠ a.view → ((changeView s a.view b h).reply t .ok is).view v = s.view v := fun b h is =>
    ⟨(changeView_does s _ b h).trans (Does.reply _ _ _ _), fun v hv => (changeView_view s _ b h v).trans (if_neg hv)⟩
  unfold doViewDefine
  dsimp only
  split
  · exact ⟨Does.reply _ _ _ _, fun _ _ => rfl⟩
  split
  · exact ⟨Does.reply _ _ _ _, fun _ _ => rfl⟩
  split
  · exact changed _ _ _
  split
  · next place _ => exact ⟨(Follows.replyDetail s t .range place []).does, fun _ _ => rfl⟩
  · exact changed _ _ _

end

/-- Settles O33: every outcome touches the named view alone (`doViewDefine_touches`), and each clause is one outcome's act. -/
theorem viewDefineStoresTheShape : Obligations.ViewDefineStoresTheShape := by
  intro s tag a hoff h1 h2
  have event : exec (.viewDefine tag a) s = .next (endEvent s (doViewDefine a (ticketOf s 32 tag) (beginTake s))) :=
    exec_offered hoff
  refine ⟨_, event, ?_⟩
  have ends := endEvent_ends s
  obtain ⟨does, others⟩ := doViewDefine_touches (s := beginTake s) (a := a) (ticketOf s 32 tag)
  -- A change of the view, with its answer, as it stands after the event.
  have changed : (s.view a.view).useCount = 0 → ∀ b h is,
      (endEvent s ((changeView (beginTake s) a.view b h).reply (ticketOf s 32 tag) .ok is)).view a.view = ⟨b, h, 0⟩ ∧
      Answered s (endEvent s ((changeView (beginTake s) a.view b h).reply (ticketOf s 32 tag) .ok is)) 32 tag .ok 0 is :=
    fun hc b h is => ⟨((ends _).view _).trans ((changeView_view _ _ b h _).trans (by rw [if_pos rfl, ← hc]; rfl)),
      answered_reply _ List.prefix_rfl⟩
  refine ⟨fun v hv => ((ends _).view v).trans (others v hv), Frame.taken does.frame (ends _) does.now, fun hc => ?_,
    fun hc hclear => ?_, fun hc hclear hlead hbytes hfirst hcount hstep hcol hsum => ?_⟩
  · rw [doViewDefine_claimed (s := beginTake s) _ h1 h2 hc]
    exact ⟨(ends _).view _, answered_reply _ List.prefix_rfl⟩
  · rw [doViewDefine_clears (s := beginTake s) _ h1 h2 hc hclear]
    exact changed hc _ _ _
  · have legal := shapeFault_eq_none.2 ⟨hlead, hbytes, hfirst, hcount, hstep, hcol, hsum⟩
    rw [doViewDefine_defines (s := beginTake s) _ h1 h2 hc hclear legal]
    exact changed hc _ _ _

/-! ## The effective line count -/

/-- Where selected line i of a frame ends, from the frame's first byte (R32). -/
def lineEnd (h : Shape) (i : Nat) : Nat := h.lead + (h.firstLine + i * h.lineStep) * h.lineBytes + h.colOffset + h.colBytes

/-- A line is counted where it is one of the view's and ends within the frame (R33). -/
theorem lt_lineCountOf {h : Shape} {size i : Nat} (hd : 0 < h.lineStep * h.lineBytes) :
    i < lineCountOf h size ↔ i < h.lineCount ∧ lineEnd h i ≤ size := by
  have pitch : lineEnd h i = h.lead + h.colOffset + h.colBytes + h.firstLine * h.lineBytes + i * (h.lineStep * h.lineBytes) := by
    unfold lineEnd; ring
  rw [pitch]
  unfold lineCountOf divFloor
  generalize h.firstLine * h.lineBytes = first
  generalize h.lineStep * h.lineBytes = d at hd
  dsimp only
  split
  · omega
  · have fits := Int.le_ediv_iff_mul_le (a := (i : Int)) (b := (size : Int) - h.lead - h.colOffset - h.colBytes - first)
      (Int.natCast_pos.2 hd)
    rw [Int.fdiv_eq_ediv_of_nonneg _ (Int.natCast_nonneg d), Nat.lt_min, Nat.lt_succ_iff,
      Int.le_toNat (Int.ediv_nonneg (by omega) (Int.natCast_nonneg d)), fits]
    omega

/-- Settles O34: both bounds on the lines are `lt_lineCountOf`, at a counted line and at the first that is not. -/
theorem lineCountIsWhatFits : Obligations.LineCountIsWhatFits := by
  intro view h size hv hb hs
  have counted : ∀ i, i < lineCountOf h size ↔ i < h.lineCount ∧ lineEnd h i ≤ size := fun i => lt_lineCountOf (Nat.mul_pos hs hb)
  refine ⟨Nat.le_of_not_lt fun hlt => ?_, fun i hi => ((counted i).1 hi).2, fun hlt => ?_, if_neg hv⟩
  · exact absurd ((counted _).1 hlt).1 (Nat.lt_irrefl _)
  · exact Nat.lt_of_not_le fun hle => Nat.lt_irrefl _ ((counted _).2 ⟨hlt, hle⟩)

end Sys2Proof.Machine

/-! SUPPORT. The plan of a frame: the sectors its pieces cover, and where they lie on a volume's members (R34 to R39). -/

namespace Sys2Proof.Machine

/-! ## The runs of the pieces -/

/-- A sector lies in one of these runs. -/
def InRuns (runs : List (Nat × Nat)) (q : Nat) : Prop := ∃ run ∈ runs, run.1 ≤ q ∧ q < run.2

theorem inRuns_cons {run : Nat × Nat} {runs : List (Nat × Nat)} {q : Nat} :
    InRuns (run :: runs) q ↔ (run.1 ≤ q ∧ q < run.2) ∨ InRuns runs q := by simp [InRuns]

/-- A cut run ends at the end of the unit it starts in, at the latest (R36). -/
theorem cutRun_within {unit n : Nat} {r run : Nat × Nat} (h : run ∈ cutRun unit n r) : run.2 ≤ (run.1 / unit + 1) * unit := by
  induction n generalizing r with
  | zero => cases h
  | succ n ih =>
    unfold cutRun at h
    split at h
    · cases h
    · rcases List.mem_cons.1 h with rfl | h
      · exact Nat.min_le_right _ _
      · exact ih h

/-- Cutting loses no sector, given as many cuts as sectors (R36). -/
theorem cutRun_covers {unit n x y q : Nat} (hU : 0 < unit) (hn : y - x ≤ n) (hx : x ≤ q) (hy : q < y) :
    InRuns (cutRun unit n (x, y)) q := by
  induction n generalizing x with
  | zero => omega
  | succ n ih =>
    have later : x < (x / unit + 1) * unit := Nat.lt_mul_of_div_lt (Nat.lt_succ_self _) hU
    unfold cutRun
    rw [if_neg (by omega)]
    dsimp only
    generalize (x / unit + 1) * unit = z at later
    rw [inRuns_cons]
    by_cases hq : q < min y z
    · exact .inl ⟨hx, hq⟩
    · exact .inr (ih (by omega) (by omega))

/-- Merging runs that come in order of their starts loses no sector (R35). -/
theorem mergeRuns_covers {o : Nat × Nat} {rest : List (Nat × Nat)} {q : Nat} (sorted : (o :: rest).Pairwise (·.1 ≤ ·.1))
    (h : InRuns (o :: rest) q) : InRuns (mergeRuns o rest) q := by
  induction rest generalizing o with
  | nil => exact h
  | cons r rest ih =>
    obtain ⟨first, tail⟩ := List.pairwise_cons.1 sorted
    have hor := first r (List.mem_cons_self ..)
    rw [inRuns_cons] at h
    unfold mergeRuns
    split
    · refine ih (List.pairwise_cons.2 ⟨fun a ha => first a (List.mem_cons_of_mem _ ha), (List.pairwise_cons.1 tail).2⟩) ?_
      rw [inRuns_cons] at h ⊢
      rcases h with ho | hr | h
      · exact .inl ⟨ho.1, lt_max_of_lt_left ho.2⟩
      · exact .inl ⟨hor.trans hr.1, lt_max_of_lt_right hr.2⟩
      · exact .inr h
    · rw [inRuns_cons]
      exact h.imp_right (ih tail)

/-- Each piece starts in one unit and ends within it (R36). -/
theorem pieceRuns_within {unit : Nat} {ranges : List ByteRange} {run : Nat × Nat} (h : run ∈ pieceRuns unit ranges) :
    run.2 ≤ (run.1 / unit + 1) * unit := by
  obtain ⟨_, -, hrun⟩ := List.mem_flatMap.1 h
  exact cutRun_within hrun

/-- Where the ranges come in order, every sector of each lies in a piece (R34 to R36). -/
theorem pieceRuns_covers {unit q : Nat} {ranges : List ByteRange} {r : ByteRange} (hU : 0 < unit)
    (sorted : ranges.Pairwise (·.start ≤ ·.start)) (hr : r ∈ ranges) (h1 : (sectorRun r).1 ≤ q) (h2 : q < (sectorRun r).2) :
    InRuns (pieceRuns unit ranges) q := by
  have merged : InRuns (mergedRuns ranges) q := by
    cases ranges with
    | nil => cases hr
    | cons o rest =>
      have runs : (sectorRun o :: rest.map sectorRun).Pairwise (·.1 ≤ ·.1) :=
        (List.pairwise_map (l := o :: rest) (f := sectorRun)).2 (sorted.imp fun h => Nat.div_le_div_right h)
      exact mergeRuns_covers runs ⟨sectorRun r, List.mem_map_of_mem (f := sectorRun) hr, h1, h2⟩
  obtain ⟨m, hm, hx, hy⟩ := merged
  obtain ⟨run, hrun, hq⟩ := cutRun_covers hU le_rfl hx hy
  exact ⟨run, List.mem_flatMap.2 ⟨m, hm, hrun⟩, hq⟩

/-- The selected ranges of a frame come in order of their starts (R32). -/
theorem byteRanges_sorted (view : Nat) (h : Shape) (loc : Location) : (byteRanges view h loc).Pairwise (·.start ≤ ·.start) := by
  unfold byteRanges
  split
  · exact List.pairwise_singleton _ _
  · refine List.pairwise_map.2 (List.pairwise_lt_range.imp fun {i j} hij => ?_)
    unfold lineRange
    dsimp only
    gcongr

/-! ## Pieces on their members -/

theorem mem_planOf {v : Volume} {view : Nat} {h : Shape} {loc : Location} {p : Piece} : p ∈ planOf v view h loc ↔
    ∃ run ∈ pieceRuns v.unit (byteRanges view h loc), pieceAt v (byteRanges view h loc) run = p := List.mem_map

theorem placeUnit_plain {v : Volume} (hp : v.parity = false) (u off : Nat) :
    placeUnit v u off = (u % v.members.length, v.base + u / v.members.length * v.unit + off) := by
  unfold placeUnit
  rw [hp]
  rfl

theorem placeUnit_parity {v : Volume} (hp : v.parity = true) (u off : Nat) : placeUnit v u off =
    (((v.members.length - 1) - u / (v.members.length - 1) % v.members.length + 1 + u % (v.members.length - 1)) % v.members.length,
      v.base + u / (v.members.length - 1) * v.unit + off) := by
  unfold placeUnit
  rw [hp]
  rfl

theorem reconstructible_plain {s : State} {k : Nat} (hp : (s.volume k).parity = false) (p : Piece) :
    reconstructible s k p = false := by simp [reconstructible, hp]

/-- Settles O35: a piece is `pieceAt` of a run within one unit, and its unit's place is `placeUnit_plain`. -/
theorem plainVolumePlacement : Obligations.PlainVolumePlacement := by
  intro v view h loc p hp hU hm hmem
  obtain ⟨run, hrun, rfl⟩ := mem_planOf.1 hmem
  have place := placeUnit_plain hp (run.1 / v.unit) (run.1 % v.unit)
  have index : (pieceAt v (byteRanges view h loc) run).memberIndex = run.1 / v.unit % v.members.length := congrArg Prod.fst place
  have inside := Nat.mod_lt (run.1 / v.unit) (List.length_pos_iff.2 hm)
  refine ⟨index, ?_, congrArg Prod.snd place, ?_, fun s k hk => reconstructible_plain (by rw [hk]; exact hp) _⟩
  · show v.members[(pieceAt v _ run).memberIndex]? = some (v.members.getD (pieceAt v (byteRanges view h loc) run).memberIndex 0)
    rw [index, List.getD_eq_getElem _ _ inside, List.getElem?_eq_getElem inside]
  · have within := pieceRuns_within hrun
    have split := Nat.div_add_mod' run.1 v.unit
    have short := Nat.mod_lt run.1 hU
    rw [Nat.succ_mul] at within
    show run.1 % v.unit + (run.2 - run.1) ≤ v.unit
    omega

/-- Fewer than w steps on around w places pass the last place once at most. -/
theorem add_mod_of_lt {w p k : Nat} (hp : p < w) (hk : k < w) : (p + k) % w = if w ≤ p + k then p + k - w else p + k := by
  rw [Nat.add_mod_eq_ite, Nat.mod_eq_of_lt hp, Nat.mod_eq_of_lt hk]

/-- Settles O36: the member index lies 1 to W - 1 places after the parity index, by a number that differs within the stripe. -/
theorem parityVolumePlacement : Obligations.ParityVolumePlacement := by
  intro v u u' off hp hw stripe hne
  rw [placeUnit_parity hp, placeUnit_parity hp, ← stripe]
  generalize v.members.length = w at *
  have apart : u % (w - 1) ≠ u' % (w - 1) := fun same => hne <| by
    rw [← Nat.div_add_mod u (w - 1), ← Nat.div_add_mod u' (w - 1), stripe, same]
  have ku : u % (w - 1) < w - 1 := Nat.mod_lt _ (by omega)
  have ku' : u' % (w - 1) < w - 1 := Nat.mod_lt _ (by omega)
  have parityIndex : w - 1 - u / (w - 1) % w < w := by omega
  generalize w - 1 - u / (w - 1) % w = p at *
  dsimp only
  rw [Nat.add_assoc, Nat.add_assoc, add_mod_of_lt parityIndex (by omega), add_mod_of_lt parityIndex (by omega)]
  refine ⟨?_, ?_, ?_, rfl, rfl⟩
  · split <;> omega
  · split <;> omega
  · split <;> split <;> omega

/-! ## Extracts -/

/-- A byte both of a range and of the sectors [x, y) is carried by their extract, from its place in the piece to its delivered
place (R39). -/
theorem extractOf_carries {x y b : Nat} {r : ByteRange} (h1 : r.start ≤ b) (h2 : b < r.stop) (hx : x ≤ b / Config.sector)
    (hy : b / Config.sector < y) : ∃ e, extractOf x y r = some e ∧ e.delivered ≤ r.delivered + (b - r.start) ∧
      r.delivered + (b - r.start) < e.delivered + e.length ∧
      x * Config.sector + e.pieceOffset + (r.delivered + (b - r.start) - e.delivered) = b := by
  have from' : x * Config.sector ≤ b := (Nat.le_div_iff_mul_le (by decide)).1 hx
  have till : b < y * Config.sector := (Nat.div_lt_iff_lt_mul (by decide)).1 hy
  unfold extractOf
  dsimp only
  rw [if_pos (by omega)]
  refine ⟨_, rfl, ?_, ?_, ?_⟩ <;> dsimp only <;> omega

theorem mem_sectorRun {b : Nat} {r : ByteRange} (h1 : r.start ≤ b) (h2 : b < r.stop) :
    (sectorRun r).1 ≤ b / Config.sector ∧ b / Config.sector < (sectorRun r).2 := by
  refine ⟨Nat.div_le_div_right h1, ?_⟩
  show b / 4096 < (r.stop + 4096 - 1) / 4096
  omega

/-- Settles O37: the byte's sector lies in a piece (`pieceRuns_covers`), whose extract of the range carries it. -/
theorem everySelectedByteIsPlaced : Obligations.EverySelectedByteIsPlaced := by
  intro v view h loc r b hU hr h1 h2
  obtain ⟨low, high⟩ := mem_sectorRun h1 h2
  obtain ⟨run, hrun, hx, hy⟩ := pieceRuns_covers hU (byteRanges_sorted view h loc) hr low high
  obtain ⟨e, he, first, last, place⟩ := extractOf_carries h1 h2 hx hy
  refine ⟨_, mem_planOf.2 ⟨run, hrun, rfl⟩, e, List.mem_filterMap.2 ⟨r, hr, he⟩, first, last, ?_⟩
  show (run.1 / v.unit * v.unit + run.1 % v.unit) * Config.sector + _ + _ = b
  rw [Nat.div_add_mod']
  exact place

end Sys2Proof.Machine

/-! SUPPORT. What the consequences of an event leave of a channel's cue, of a list that is not extended and of a transfer in
flight (R54, R83, R98). -/

namespace Sys2Proof.Machine

/-- The depth target of a channel's phase, before an overload lowers it (R82). -/
def Channel.phaseDepth (ch : Channel) : Nat :=
  match ch.phase with
  | .prime => ch.primeDepth
  | .sustain => ch.sustainDepth

theorem depthTarget_le (s : State) (ch : Channel) : depthTarget s ch ≤ ch.phaseDepth := by
  show (if s.store.overload then min ch.phaseDepth 2 else ch.phaseDepth) ≤ ch.phaseDepth
  split
  · exact Nat.min_le_left _ _
  · exact Nat.le_refl _

/-- A channel's state, cue and cue expiry stand. -/
def CueStands (a b : Channel) : Prop := b.state = a.state ∧ b.cue = a.cue ∧ b.cueExpiry = a.cueExpiry

/-- The cue of a CUEING channel has completed, not short; its answer is among those told (R54). -/
structure CueCompleted (told : Handed → Prop) (a b : Channel) : Prop where
  cueing : a.state = .cueing
  state : b.state = .cued
  cue : b.cue = none
  expiry : b.cueExpiry = none
  flag : b.flags &&& ChanFlag.cued ≠ 0
  told : ∀ q, a.cue = some q → ∃ n ≤ a.phaseDepth, told ⟨q.ticket, .ok, false, 0, cueItems q false n⟩

/-- An empty list that is not extended stays empty, a transfer in flight stays in flight, and a cue stands or completes. -/
structure Leaves (told : Handed → Prop) (s t : State) : Prop where
  lists : ∀ c, (s.chan c).state.extends = false → (s.chan c).list = [] → (t.chan c).list = []
  transfers : ∀ c x, (s.ring c).transfer = some x → (t.ring c).transfer = some x
  cues : ∀ c, CueStands (s.chan c) (t.chan c) ∨ CueCompleted told (s.chan c) (t.chan c)

/-- Consequences, with what they leave. -/
structure Settles (s t : State) : Prop where
  follows : Follows s t
  leaves : Leaves (· ∈ t.handed) s t

theorem CueCompleted.tell {told told' : Handed → Prop} {a b b' : Channel} (h : CueCompleted told a b) (hs : CueStands b b')
    (hf : FlagsAdded lateFlags b.flags b'.flags) (ht : ∀ x, told x → told' x) : CueCompleted told' a b' := by
  obtain ⟨state, cue, expiry⟩ := hs
  exact ⟨h.cueing, state.trans h.state, cue.trans h.cue, expiry.trans h.expiry, hf.bit h.flag, fun q hq =>
    (h.told q hq).imp fun n hn => ⟨hn.1, ht _ hn.2⟩⟩

theorem CueCompleted.of_stands {told : Handed → Prop} {a a' b : Channel} (hs : CueStands a a') (hk : a'.kept = a.kept)
    (h : CueCompleted told a' b) : CueCompleted told a b := by
  obtain ⟨state, cue, -⟩ := hs
  have depth : a'.phaseDepth = a.phaseDepth := show a'.kept.phaseDepth = a.kept.phaseDepth by rw [hk]
  exact ⟨state.symm.trans h.cueing, h.state, h.cue, h.expiry, h.flag, fun q hq => depth ▸ h.told q (cue.trans hq)⟩

theorem Settles.trans {s t u : State} (a : Settles s t) (b : Settles t u) : Settles s u where
  follows := a.follows.trans b.follows
  leaves := {
    lists := fun c he hl => by
      refine b.leaves.lists c ?_ (a.leaves.lists c he hl)
      rcases a.leaves.cues c with h | h
      · rw [h.1]; exact he
      · rw [h.cueing] at he; cases he
    transfers := fun c x h => b.leaves.transfers c x (a.leaves.transfers c x h)
    cues := fun c => by
      rcases a.leaves.cues c with h | h <;> rcases b.leaves.cues c with g | g
      · exact .inl ⟨g.1.trans h.1, g.2.1.trans h.2.1, g.2.2.trans h.2.2⟩
      · exact .inr (g.of_stands h (a.follows.chans c))
      · exact .inr (h.tell g ((b.follows.flags c).wider (by decide)) (fun _ hx => b.follows.handed.subset hx))
      · have := g.cueing; rw [h.state] at this; cases this }

section
variable {s : State}

/-- Consequences that write the store and the schedule, and of a list no more than statuses and references. -/
theorem Acts.settles {t : State} (a : Acts (fun _ => False) s t) (f : Follows s t) : Settles s t where
  follows := f
  leaves := {
    lists := fun c _ hl => by
      have := congrArg Channel.list (a.chans c id)
      simpa [Channel.still, hl] using this
    transfers := fun c x h => by rw [a.rings c id]; exact h
    cues := fun c => .inl ⟨congrArg (fun ch => ch.state) (a.chans c id), congrArg (fun ch => ch.cue) (a.chans c id),
      congrArg (fun ch => ch.cueExpiry) (a.chans c id)⟩ }

theorem Settles.refl (s : State) : Settles s s := (Acts.refl s).settles (Follows.refl s)

/-- One channel record is written, its cue standing. -/
theorem Settles.modChan {c : Nat} {g : Channel → Channel} (f : Follows s (s.modChan c g))
    (hc : CueStands (s.chan c) (g (s.chan c)))
    (hl : (s.chan c).state.extends = false → (s.chan c).list = [] → (g (s.chan c)).list = []) : Settles s (s.modChan c g) where
  follows := f
  leaves := {
    lists := fun i he h => by
      rw [State.chan_modChan]
      split
      · rename_i e; subst e; exact hl he h
      · exact h
    transfers := fun _ _ h => h
    cues := fun i => .inl <| by
      rw [State.chan_modChan]
      split
      · rename_i e; subst e; exact hc
      · exact ⟨rfl, rfl, rfl⟩ }

/-- Rings and outputs are written, a transfer in flight standing. -/
theorem Settles.ofRings {t : State} (f : Follows s t) (hc : t.chans = s.chans)
    (hr : ∀ c x, (s.ring c).transfer = some x → (t.ring c).transfer = some x) : Settles s t where
  follows := f
  leaves := {
    lists := fun c _ hl => by unfold State.chan; rw [hc]; exact hl
    transfers := hr
    cues := fun c => .inl (by unfold State.chan CueStands; rw [hc]; exact ⟨rfl, rfl, rfl⟩) }

theorem Settles.setRing {c : Nat} {r : Ring} (hk : r.kept = (s.ring c).kept)
    (h : ∀ x, (s.ring c).transfer = some x → r.transfer = some x) : Settles s (s.setRing c r) :=
  Settles.ofRings (Follows.setRing s c r hk) rfl fun i x hx => by
    rw [State.ring_setRing]
    split
    · rename_i e; subst e; exact h x hx
    · exact hx

theorem Settles.emit (s : State) (o : Output) : Settles s (s.emit o) := Settles.ofRings (Follows.emit s o) rfl fun _ _ h => h

/-! ## One consequence at a time -/

theorem resolveStep_settles {t : State} (h : resolveStep s = some t) : Settles s t := by
  obtain ⟨c, -, hc⟩ := firstSome_mem h
  obtain ⟨i, -, rfl⟩ := Option.map_eq_some_iff.1 hc
  exact (resolveAt_acts _ _ _).settles (resolveAt_follows _ _ _)

theorem extendStep_settles {t : State} (h : extendStep s = some t) : Settles s t := by
  obtain ⟨c, -, hc⟩ := firstSome_mem h
  unfold extendOne at hc
  split at hc
  · rename_i he
    simp only [Bool.and_eq_true] at he
    obtain ⟨d, -, rfl⟩ := Option.map_eq_some_iff.1 hc
    refine Settles.modChan (setList_follows _ _ _) ⟨rfl, rfl, rfl⟩ fun hf => ?_
    rw [he.1.1.1] at hf
    cases hf
  · cases hc

/-- A cue's completion hands its answer over. -/
theorem completeCue_handed {c : Nat} {q : CueRequest} (short : Bool) (n : Nat) (hq : (s.chan c).cue = some q) :
    (⟨q.ticket, .ok, false, 0, cueItems q short n⟩ : Handed) ∈ (completeCue s c short n).handed := by
  unfold completeCue
  rw [hq]
  exact handed_reply _ _ _ _

theorem completeCue_chan (s : State) (c : Nat) (short : Bool) (n i : Nat) : (completeCue s c short n).chan i =
    if i = c then { s.chan c with
      state := .cued, cue := none, cueExpiry := none
      flags := (s.chan c).flags ||| ChanFlag.cued ||| flagIf short ChanFlag.short } else s.chan i := by
  unfold completeCue
  dsimp only
  rw [State.chan_modChan]
  split <;> split <;> rfl

theorem completeCue_ring (s : State) (c : Nat) (short : Bool) (n i : Nat) : (completeCue s c short n).ring i = s.ring i := by
  unfold completeCue
  dsimp only
  split <;> rfl

theorem cueStep_settles {t : State} (h : cueStep s = some t) : Settles s t := by
  obtain ⟨c, -, hc⟩ := firstSome_mem h
  unfold cueOne at hc
  split at hc
  · rename_i hs
    simp only [Option.some.injEq] at hc
    subst hc
    refine ⟨completeCue_follows _ _ _ _ hs.1, fun i he hl => ?_, fun i x hx => (completeCue_ring s _ _ _ i).symm ▸ hx, fun i => ?_⟩
    · rw [completeCue_chan]
      split
      · rename_i e; subst e; exact hl
      · exact hl
    · rw [completeCue_chan]
      split
      · rename_i e
        subst e
        refine .inr ⟨hs.1, rfl, rfl, rfl, ?_, fun q hq => ⟨_, ?_, completeCue_handed _ _ hq⟩⟩
        · exact (by decide : ∀ f : BitVec 7, (f ||| ChanFlag.cued ||| flagIf false ChanFlag.short) &&& ChanFlag.cued ≠ 0) _
        · exact (Nat.min_le_left _ _).trans (depthTarget_le _ _)
      · exact .inl ⟨rfl, rfl, rfl⟩
  · cases hc

/-- A ring's slots are written, with an output. -/
theorem Settles.slots {c : Nat} {r : Ring} (o : Output) (hk : r.kept = (s.ring c).kept) (ht : r.transfer = (s.ring c).transfer) :
    Settles s ((s.setRing c r).emit o) := (Settles.setRing hk fun _ h => ht.trans h).trans (Settles.emit _ o)

theorem writeNoData_settles (s : State) (c : Nat) (d : Record) : Settles s (writeNoData s c d) := by
  unfold writeNoData
  dsimp only
  split
  · exact Settles.slots _ (by rfl) (by rfl)
  · exact (Settles.slots _ (by rfl) (by rfl)).trans (Settles.slots _ (by rfl) (by rfl))

theorem markWritten_settles (s : State) (c : Nat) (n : Word32) : Settles s (markWritten s c n) :=
  Settles.modChan (markWritten_follows _ _ _) ⟨rfl, rfl, rfl⟩ fun _ h => h

theorem beginIfReady_settles {t : State} {c : Nat} {e : ListEntry} {p : Cursor} (h : beginIfReady s c e p = some t) :
    Settles s t := by
  unfold beginIfReady at h
  split at h
  · rename_i free
    obtain ⟨x, -, rfl⟩ := Option.map_eq_some_iff.1 h
    refine Settles.trans (Settles.trans (Settles.setRing (by rfl) fun y hy => ?_)
      ((Acts.modEntry _ _ _).settles (addHold_follows _ _))) (markWritten_settles _ _ _)
    have := free.1
    rw [hy] at this
    cases this
  · cases h

theorem deliverPeriod_settles {t : State} {c : Nat} (h : deliverPeriod s c = some t) : Settles s t := by
  unfold deliverPeriod at h
  dsimp only at h
  split at h
  · cases h
  · split at h
    · split at h
      · split at h
        · cases h
        · simp only [Option.some.injEq] at h
          subst h
          exact (writeNoData_settles _ _ _).trans (markWritten_settles _ _ _)
      · exact beginIfReady_settles h
    · cases h

theorem deliverStep_settles {t : State} (h : deliverStep s = some t) : Settles s t := by
  obtain ⟨c, -, hc⟩ := firstSome_mem h
  unfold deliverOne at hc
  dsimp only at hc
  split at hc
  · cases hc
  · split at hc
    · simp only [Option.some.injEq] at hc
      subst hc
      exact (writeNoData_settles _ _ _).trans (Settles.setRing (by rfl) fun _ h => h)
    · split at hc
      · exact deliverPeriod_settles hc
      · cases hc

theorem issueStep_settles {t : State} (h : issueStep s = some t) : Settles s t := by
  obtain ⟨m, -, hm⟩ := firstSome_mem h
  have f := issueOne_follows hm
  unfold issueOne at hm
  split at hm
  · split at hm
    · cases hm
    · split at hm
      · cases hm
      · simp only [Option.some.injEq] at hm
        subst hm
        exact Settles.ofRings f rfl fun _ _ h => h
  · cases hm

theorem orStep_settles {a b : State → Option State} (ha : ∀ {t}, a s = some t → Settles s t)
    (hb : ∀ {t}, b s = some t → Settles s t) {t : State} (h : orStep a b s = some t) : Settles s t := by
  unfold orStep at h
  split at h
  · rename_i x hx
    cases h
    exact ha hx
  · exact hb h

theorem settleStep_settles {t : State} (h : settleStep s = some t) : Settles s t :=
  orStep_settles (fun h => (handStep_acts h).settles (handStep_follows h))
    (orStep_settles (fun h => (judgeOverload_acts h).settles (judgeOverload_follows h))
      (orStep_settles (fun h => (grantHead_acts h).settles (grantHead_follows h))
        (orStep_settles resolveStep_settles (orStep_settles extendStep_settles (orStep_settles cueStep_settles
          (orStep_settles deliverStep_settles issueStep_settles)))))) h

end

theorem settleFor_settles (n : Nat) (s : State) : Settles s (settleFor n s) := by
  induction n generalizing s with
  | zero => exact Settles.refl s
  | succ n ih =>
    have fresh := (refreshUrgency_acts s).settles (refreshUrgency_follows s)
    unfold settleFor
    dsimp only
    split
    · rename_i t ht
      exact (fresh.trans (settleStep_settles ht)).trans (ih t)
    · exact fresh

theorem settle_settles (s : State) : Settles s (settle s) := settleFor_settles _ s

/-! ## The end of the event -/

/-- What the close of an event does to channels and rings: flags are added; each answer handed over is written. -/
structure Finishes (s t : State) : Prop where
  chans : ∀ c, ∃ f, t.chan c = { s.chan c with flags := (s.chan c).flags ||| (f &&& lateFlags) }
  rings : t.rings = s.rings
  out : s.out <+: t.out
  answered : ∀ h ∈ s.handed, ∃ a w, Output.answer a (h.answer w) ∈ outputsSince s t

theorem startRead_finish (s0 s : State) : Finishes s (startRead (finish s0 s)) := by
  obtain ⟨x, o, hf⟩ := finish_eq s0 s
  obtain ⟨a, v, st, o2, hw, -, ha⟩ := writeAnswers_fold
    (sortBy (fun a b => decide (a.ticket.seq < b.ticket.seq)) (applyConditions s0 s).handed) (applyConditions s0 s)
  have eq : ∃ p, finish s0 s = { applyConditions s0 s with port := p, out := s.out ++ o2 ++ o, handed := [] } := by
    rw [hf]
    unfold writeAnswers
    rw [hw]
    exact ⟨_, rfl⟩
  obtain ⟨p, eq⟩ := eq
  have written : ∀ h ∈ s.handed, ∃ a w, Output.answer a (h.answer w) ∈ o2 := fun h hm => ha h ((sortBy_perm _ _).mem_iff.2 hm)
  have done : ∀ (u : State) (o3 : List Output), u.chans = (applyConditions s0 s).chans → u.rings = s.rings →
      u.out = s.out ++ o2 ++ o ++ o3 → Finishes s u := fun u o3 hc hr ho => by
    refine ⟨fun c => ?_, hr, ⟨o2 ++ o ++ o3, by rw [ho]; simp⟩, fun h hm => ?_⟩
    · obtain ⟨f, h⟩ := applyChanConditions_get s.port s0.chans s.chans c
      exact ⟨f, by unfold State.chan; rw [hc]; exact h⟩
    · obtain ⟨a, w, h⟩ := written h hm
      refine ⟨a, w, ?_⟩
      unfold outputsSince
      rw [ho, List.append_assoc, List.append_assoc, List.drop_left]
      exact List.mem_append_left _ h
  rcases startRead_eq (finish s0 s) with h | ⟨-, h⟩
  · rw [h, eq]; exact done _ [] rfl rfl (by simp)
  · rw [h, eq]; exact done _ [_] rfl rfl rfl

/-- The answers of an event, among its outputs. -/
def Written (s t : State) (h : Handed) : Prop := ∃ a w, Output.answer a (h.answer w) ∈ outputsSince s t

/-- What an event leaves of cues, lists and transfers, from the state its own act leaves. -/
theorem endEvent_leaves (s0 s : State) : Leaves (Written s (endEvent s0 s)) s (endEvent s0 s) := by
  have settles := settle_settles s
  unfold endEvent
  generalize settle s = q at settles
  have fin := startRead_finish s0 q
  generalize startRead (finish s0 q) = t at fin
  have told : ∀ h ∈ q.handed, Written s t h := fun h hm =>
    (fin.answered h hm).imp fun a => Exists.imp fun w ho => drop_mem_of_later settles.follows.out fin.out ho
  refine ⟨fun c he hl => ?_, fun c x hx => ?_, fun c => ?_⟩
  · obtain ⟨f, hf⟩ := fin.chans c
    rw [hf]
    exact settles.leaves.lists c he hl
  · unfold State.ring
    rw [fin.rings]
    exact settles.leaves.transfers c x hx
  · obtain ⟨f, hf⟩ := fin.chans c
    rw [hf]
    rcases settles.leaves.cues c with h | h
    · exact .inl h
    · exact .inr (h.tell ⟨rfl, rfl, rfl⟩ ⟨f, rfl⟩ told)

end Sys2Proof.Machine

/-! SUPPORT. An event from its own act to the state after it, and the acts of the Channel Controller: what each touches, what it
leaves of its channel's record, and the answers it hands over (R50, R54, R57, R58, R60). -/

namespace Sys2Proof.Machine

/-! ## Events -/

/-- An event from the state `s` before it to the state `t` after it; its own act, which touches `w`, leaves `x`. -/
structure Happens (w : Touched) (s x t : State) : Prop where
  does : Does w s x
  ends : Ends x t
  late : Late x t
  leaves : Leaves (Written x t) x t

theorem Does.happens {w : Touched} {s x : State} (d : Does w s x) (s0 : State) : Happens w s x (endEvent s0 x) :=
  ⟨d, endEvent_ends s0 x, endEvent_late s0 x, endEvent_leaves s0 x⟩

/-- The event of an offered request, by what its owner does. -/
theorem exec_happens {w : Touched} {s : State} {tag : Nat} {r : Request} (hoff : Offered s tag r) {x : State}
    (hx : ownerAct r (ticketOf s r.kind tag) (beginTake s) = x) (d : Does w (beginTake s) x) :
    ∃ t, exec (rowOf tag r) s = .next t ∧ Happens w s x t :=
  ⟨_, exec_offered hoff, hx ▸ ((beginTake_does s).trans d).happens _⟩

section
variable {w : Touched} {s x t : State}

theorem Happens.frame (h : Happens w s x t) : Frame w s t := h.does.frame.ends h.does.now h.ends

theorem Happens.answered (h : Happens w s x t) {q : Ticket} {r : Result} {d : BitVec 8} {is : List Item}
    (hm : (⟨q, r, false, d, is⟩ : Handed) ∈ x.handed) : Answered s t q.kind q.tag r d is := h.ends.answers h.does.frame.out hm

theorem Happens.told (h : Happens w s x t) {q : Ticket} {r : Result} {d : BitVec 8} {is : List Item}
    (hw : Written x t ⟨q, r, false, d, is⟩) : Answered s t q.kind q.tag r d is :=
  hw.imp fun _ => Exists.imp fun _ ho => drop_mem_of_later h.does.frame.out h.ends.out ho

theorem Channel.kept_of_bare {a b : Channel} (h : a.bare = b.bare) : a.kept = b.kept :=
  congrArg (fun ch => ch.kept) h

/-- What consequences leave alone of a channel is as the act put it. -/
theorem Happens.field (h : Happens w s x t) {c : Nat} {ch : Channel} (hk : (x.chan c).kept = ch.kept) {β : Type} (f : Channel → β)
    (hf : ∀ ch : Channel, f ch.kept = f ch := by exact fun _ => rfl) : f (t.chan c) = f ch := by
  rw [← hf, h.ends.chans c, hk, hf]

theorem Happens.state (h : Happens w s x t) {c : Nat} {st : ChanState} (hs : (x.chan c).state = st) (hc : st ≠ .cueing) :
    (t.chan c).state = st := by
  rcases h.ends.state c with e | ⟨e, -⟩
  · exact e.trans hs
  · exact absurd (hs.symm.trans e) hc

/-- A channel that is not CUEING keeps its cue request and cue expiry. -/
theorem Happens.cue (h : Happens w s x t) {c : Nat} (hs : (x.chan c).state ≠ .cueing) :
    (t.chan c).cue = (x.chan c).cue ∧ (t.chan c).cueExpiry = (x.chan c).cueExpiry :=
  (h.leaves.cues c).elim (fun e => e.2) fun e => absurd e.cueing hs

end

@[simp] theorem beginTake_chan (s : State) (c : Nat) : (beginTake s).chan c = s.chan c := rfl
@[simp] theorem beginTake_ring (s : State) (c : Nat) : (beginTake s).ring c = s.ring c := rfl
@[simp] theorem State.reply_chan (s : State) (t : Ticket) (r : Result) (is : List Item) (c : Nat) :
    (s.reply t r is).chan c = s.chan c := rfl
@[simp] theorem beginTake_now (s : State) : (beginTake s).now = s.now := rfl

theorem badChannel_eq_true {s : State} {c : Nat} : badChannel s c = true ↔ 64 ≤ c ∨ (s.chan c).state = .free := by
  simp [badChannel, Config.channels]

theorem badChannel_eq_false {s : State} {c : Nat} (hc : c < 64) (hs : (s.chan c).state ≠ .free) : badChannel s c = false :=
  Bool.eq_false_iff.2 fun h => (badChannel_eq_true.1 h).elim (Nat.not_le.2 hc) hs

/-! ## Waiting answers -/

theorem State.chan_modChan_self (s : State) (c : Nat) (f : Channel → Channel) : (s.modChan c f).chan c = f (s.chan c) :=
  (State.chan_modChan s c c f).trans (if_pos rfl)

theorem endCue_chan (s : State) (c : Nat) (r : Result) : (endCue s c r).chan c = { s.chan c with
    cue := none, cueExpiry := if (s.chan c).cue.isSome then none else (s.chan c).cueExpiry } := by
  unfold endCue
  cases hq : (s.chan c).cue with
  | none =>
    show s.chan c = _
    rw [if_neg (by decide), ← hq]
  | some q => exact State.chan_modChan_self _ c _

theorem endStart_chan (s : State) (c : Nat) (r : Result) : (endStart s c r).chan c = { s.chan c with start := none } := by
  unfold endStart
  cases hq : (s.chan c).start with
  | none =>
    show s.chan c = _
    rw [← hq]
  | some q => exact State.chan_modChan_self _ c _

theorem endCourse_chan (s : State) (c : Nat) (r : Result) : (endCourse s c r).chan c = { s.chan c with course := none } := by
  unfold endCourse
  cases hq : (s.chan c).course with
  | none =>
    show s.chan c = _
    rw [← hq]
  | some q => exact State.chan_modChan_self _ c _

theorem endCue_handed {s : State} {c : Nat} {q : CueRequest} (r : Result) (hq : (s.chan c).cue = some q) :
    (⟨q.ticket, r, false, 0, []⟩ : Handed) ∈ (endCue s c r).handed := by
  unfold endCue
  rw [hq]
  exact handed_reply _ _ _ _

theorem endStart_handed {s : State} {c : Nat} {q : PendingStart} (r : Result) (hq : (s.chan c).start = some q) :
    (⟨q.ticket, r, false, 0, []⟩ : Handed) ∈ (endStart s c r).handed := by
  unfold endStart
  rw [hq]
  exact handed_reply _ _ _ _

theorem endCourse_handed {s : State} {c : Nat} {q : PendingCourse} (r : Result) (hq : (s.chan c).course = some q) :
    (⟨q.ticket, r, false, 0, []⟩ : Handed) ∈ (endCourse s c r).handed := by
  unfold endCourse
  rw [hq]
  exact handed_reply _ _ _ _

/-! ## Course changes -/

theorem revokeFrom_kept (s : State) (c : Nat) (r : Word32) (b : Bool) :
    ((revokeFrom s c r b).chan c).kept = (s.chan c).kept ∧ ((revokeFrom s c r b).chan c).state = (s.chan c).state := by
  unfold revokeFrom
  split
  · rw [decideRevoke_chan]; exact ⟨rfl, rfl⟩
  · exact ⟨rfl, rfl⟩

theorem recompute_kept (s : State) (c : Nat) (k : Recompute) (n : Word32) (i : Nat) :
    ((recompute s c k n).chan i).kept = (s.chan i).kept ∧ ((recompute s c k n).chan i).state = (s.chan i).state :=
  ⟨Channel.kept_of_bare (recompute_bare s c k n i), (recompute_stays s c k n i).field (·.state)⟩

/-- After the pending course has been answered, a course change writes its channel alone. -/
theorem courseChange_after {w : Touched} {s : State} {c : Nat} (k : Recompute) (n : Word32) (f : Channel → Channel)
    (h : w.chans c) : Does w (endCourse s c .superseded) (courseChange s c k n f) := by
  unfold courseChange
  dsimp only
  refine Does.trans ?_ ((Does.modChan _ c _ (.inl h)).trans (recompute_does _ _ _ _))
  split
  · exact (revokeFrom_does _ _ _ _).trans (recompute_does _ _ _ _)
  · exact revokeFrom_does _ _ _ _

theorem courseChange_does {w : Touched} {s : State} {c : Nat} (k : Recompute) (n : Word32) (f : Channel → Channel)
    (h : w.chans c) : Does w s (courseChange s c k n f) := (endCourse_does s c _ h).trans (courseChange_after k n f h)

theorem courseChange_handed {s : State} {c : Nat} {q : PendingCourse} (k : Recompute) (n : Word32) (f : Channel → Channel)
    (hq : (s.chan c).course = some q) : (⟨q.ticket, .superseded, false, 0, []⟩ : Handed) ∈ (courseChange s c k n f).handed :=
  (courseChange_after (w := { chans := (· = c) }) k n f rfl).handed.subset (endCourse_handed _ hq)

/-- A course change gives its channel the record of the change, with no course pending (R58, R60). -/
theorem courseChange_chan (s : State) (c : Nat) (k : Recompute) (n : Word32) (f : Channel → Channel)
    (hf : ∀ ch : Channel, (f ch.kept).kept = (f ch).kept := by exact fun _ => rfl)
    (hs : ∀ ch : Channel, (f ch).state = ch.state := by exact fun _ => rfl) :
    ((courseChange s c k n f).chan c).kept = ((f { s.chan c with course := none }).restart k).kept ∧
      ((courseChange s c k n f).chan c).state = (s.chan c).state := by
  have restart : ∀ ch : Channel, (ch.kept.restart k).kept = (ch.restart k).kept ∧ (ch.restart k).state = ch.state := fun ch => by
    cases k <;> exact ⟨rfl, rfl⟩
  have write : ∀ u : State,
      (u.chan c).kept = ({ s.chan c with course := none } : Channel).kept ∧ (u.chan c).state = (s.chan c).state →
      ((recompute (u.modChan c (fun ch => (f ch).restart k)) c k n).chan c).kept =
          ((f { s.chan c with course := none }).restart k).kept ∧
        ((recompute (u.modChan c (fun ch => (f ch).restart k)) c k n).chan c).state = (s.chan c).state := fun u ⟨hk, hst⟩ => by
    obtain ⟨rk, rs⟩ := recompute_kept (u.modChan c (fun ch => (f ch).restart k)) c k n c
    rw [State.chan_modChan_self] at rk rs
    refine ⟨rk.trans ?_, by rw [rs, (restart _).2, hs, hst]⟩
    rw [← (restart (f (u.chan c))).1, ← hf, hk, hf, (restart _).1]
  have revoked : ∀ r, ((revokeFrom (endCourse s c .superseded) c r false).chan c).kept =
        ({ s.chan c with course := none } : Channel).kept ∧
      ((revokeFrom (endCourse s c .superseded) c r false).chan c).state = (s.chan c).state := fun r => by
    have := revokeFrom_kept (endCourse s c .superseded) c r false
    rwa [endCourse_chan] at this
  unfold courseChange
  dsimp only
  refine write _ ?_
  split
  · obtain ⟨rk, rs⟩ := revoked (earlierOf _ n)
    obtain ⟨tk, ts⟩ := recompute_kept (revokeFrom (endCourse s c .superseded) c (earlierOf _ n) false) c .trim _ c
    exact ⟨tk.trans rk, ts.trans rs⟩
  · exact revoked n

end Sys2Proof.Machine

/-! SUPPORT. Channel requests on a channel that is not open, and CHAN_SPEED, CHAN_OPTIONS, CHAN_DEPTH (R46, R51, R52, R59). -/

namespace Sys2Proof.Machine

/-! ## A channel that is FREE or absent -/

/-- The first check of every request on an open channel (R46). -/
theorem ownerAct_badChannel {r : Request} {c : Nat} (hr : openChannelOf r = some c) (t : Ticket) {s : State}
    (hb : badChannel s c = true) : ownerAct r t s = s.reply t .badHandle [] := by
  cases r <;> cases hr <;> exact if_pos hb

/-- Settles O38: every request on an open channel checks its channel first, and a refusal only reports (`exec_reports`). -/
theorem channelRequestsNeedAnOpenChannel : Obligations.ChannelRequestsNeedAnOpenChannel := by
  intro s tag r c hoff hr hc
  have bad : badChannel (beginTake s) c = true := badChannel_eq_true.2 hc
  obtain ⟨t, ht, frame, only, answered⟩ := exec_reports hoff (by rintro rfl; cases hr) (ownerAct_badChannel hr _ bad)
  exact ⟨t, ht, answered, frame, only⟩

/-! ## CHAN_SPEED -/

theorem later_self (n : Word32) : later n n = false := by simp [later]

theorem clampSpeed_eq (v : Int) : clampSpeed v = max (-512) (min 512 v) := by
  unfold clampSpeed clampInt
  split
  · omega
  · split <;> omega

theorem changePeriod_now {due : Word32} {apply : Option Nat} (h : ∀ n, apply = some n → later (BitVec.ofNat 32 n) due = false) :
    changePeriod due apply = due := by
  cases apply with
  | none => rfl
  | some n => exact if_neg (by rw [h n rfl]; decide)

theorem changePeriod_later {due : Word32} {n : Nat} (h : later (BitVec.ofNat 32 n) due = true) :
    changePeriod due (some n) = BitVec.ofNat 32 n ∧ BitVec.ofNat 32 n ≠ due :=
  ⟨if_pos h, fun e => by rw [e, later_self] at h; cases h⟩

theorem Channel.restart_field {β : Type} (ch : Channel) (k : Recompute) (f : Channel → β)
    (hf : ∀ ch : Channel, f ch.prime = f ch := by exact fun _ => rfl) : f (ch.restart k) = f ch := by
  cases k with
  | rebuild => exact hf ch
  | cue | trim | afterRevoke => rfl

/-- Where a channel is: its position and due index, and whether that is at the live edge. -/
def Channel.place (ch : Channel) : Int × Word32 × Bool × Bool := (ch.pos, ch.dueIndex, ch.edge, ch.atEdge)

/-- A change of speed has set a channel's speed and pending course in `y` and left it in its place. -/
structure Sped (s y : State) (c : Nat) (v : Int) (course : Option PendingCourse) : Prop where
  does : Does { chans := fun i => i = c } s y
  place : (y.chan c).place = (s.chan c).place
  speed : (y.chan c).speed = v
  course : (y.chan c).course = course
  superseded : ∀ q, (s.chan c).state = .running → (s.chan c).course = some q →
    (⟨q.ticket, .superseded, false, 0, []⟩ : Handed) ∈ y.handed

section
variable {s : State} {c : Nat}

/-- A course change in RUNNING to a speed and a pending course. -/
theorem courseChange_sped (k : Recompute) (n : Word32) (f : Channel → Channel)
    (hf : ∀ ch : Channel, (f ch.kept).kept = (f ch).kept) (hs : ∀ ch : Channel, (f ch).state = ch.state)
    (hp : ∀ ch : Channel, (f ch).place = ch.place) : Sped s (courseChange s c k n f) c
      (f { s.chan c with course := none }).speed (f { s.chan c with course := none }).course := by
  obtain ⟨kept, -⟩ := courseChange_chan s c k n f hf hs
  have field : ∀ {β : Type} (g : Channel → β), (∀ ch : Channel, g ch.kept = g ch) → (∀ ch : Channel, g ch.prime = g ch) →
      g ((courseChange s c k n f).chan c) = g (f { s.chan c with course := none }) := fun g hk hp => by
    rw [← hk, kept, hk, Channel.restart_field _ k g hp]
  exact ⟨courseChange_does k n f rfl, (field _ (fun _ => rfl) fun _ => rfl).trans (hp _), field _ (fun _ => rfl) fun _ => rfl,
    field _ (fun _ => rfl) fun _ => rfl, fun q _ hq => courseChange_handed k n f hq⟩

/-- A speed applied in RUNNING at once (R59). -/
theorem speedRunning_now {apply : Option Nat} (t : Ticket) (v : Int)
    (h : changePeriod (s.chan c).dueIndex apply = (s.chan c).dueIndex) :
    ∃ y, speedRunning s c t v apply = y.reply t .ok (speedItems v (s.chan c).dueIndex.toNat) ∧ Sped s y c v none := by
  unfold speedRunning
  dsimp only
  rw [h, if_pos rfl]
  split
  · rename_i same
    exact ⟨s, rfl, Does.refl s, rfl, same.1.symm, same.2, fun q _ hq => by rw [same.2] at hq; cases hq⟩
  · exact ⟨_, rfl, courseChange_sped _ _ _ (fun _ => rfl) (fun _ => rfl) (fun _ => rfl)⟩

/-- A speed left pending in RUNNING (R59, R60). -/
theorem speedRunning_later {n : Nat} (t : Ticket) (v : Int) (h : later (BitVec.ofNat 32 n) (s.chan c).dueIndex = true) :
    Sped s (speedRunning s c t v (some n)) c (s.chan c).speed (some ⟨v, BitVec.ofNat 32 n, t⟩) := by
  obtain ⟨hn, hne⟩ := changePeriod_later h
  unfold speedRunning
  dsimp only
  rw [hn, if_neg hne]
  exact courseChange_sped _ _ _ (fun _ => rfl) (fun _ => rfl) (fun _ => rfl)

/-- A speed stored outside RUNNING (R59). -/
theorem speedStill_sped (hs : (s.chan c).state ≠ .running) (v : Int) : Sped s (speedStill s c v) c v (s.chan c).course := by
  have stays := recompute_stays (s.modChan c (fun ch => ({ ch with speed := v }).restart (speedClass (s.chan c).speed v))) c
    (speedClass (s.chan c).speed v) (s.chan c).dueIndex c
  have field : ∀ {β : Type} (f : Channel → β), (∀ ch : Channel, f ch.bare = f ch) → (∀ ch : Channel, f ch.prime = f ch) →
      f ((speedStill s c v).chan c) = f { s.chan c with speed := v } := fun f hb hp => by
    refine (stays.field f hb).trans ?_
    rw [State.chan_modChan_self, Channel.restart_field _ _ f hp]
  exact ⟨(Does.modChan s c _ (.inl rfl)).trans (recompute_does _ _ _ _), field Channel.place (fun _ => rfl) fun _ => rfl,
    field (·.speed) (fun _ => rfl) fun _ => rfl, field (·.course) (fun _ => rfl) fun _ => rfl, fun q h => absurd h hs⟩

theorem doChanSpeed_outside {a : ChanSpeedArgs} (t : Ticket) (hb : badChannel s a.channel = false)
    (hs : (s.chan a.channel).state ≠ .running) : ∃ y, doChanSpeed a t s = y.reply t .ok (speedItems (clampSpeed a.speed) 0) ∧
      Sped s y a.channel (clampSpeed a.speed) (s.chan a.channel).course := by
  unfold doChanSpeed
  dsimp only
  rw [if_neg (by rw [hb]; decide)]
  split
  · rename_i h; exact absurd h hs
  · have chan := State.chan_modChan_self s a.channel
    exact ⟨_, rfl, Does.modChan s a.channel _ (.inl rfl), (congrArg Channel.place (chan _)).trans rfl,
      (congrArg (·.speed) (chan _)).trans rfl,
      (congrArg (·.course) (chan _)).trans rfl, fun q h => absurd h hs⟩
  · exact ⟨_, rfl, speedStill_sped hs _⟩

theorem doChanSpeed_running {a : ChanSpeedArgs} (t : Ticket) (hb : badChannel s a.channel = false)
    (hs : (s.chan a.channel).state = .running) : doChanSpeed a t s = speedRunning s a.channel t (clampSpeed a.speed) a.apply := by
  unfold doChanSpeed
  dsimp only
  rw [if_neg (by rw [hb]; decide), hs]

end

/-- What an event leaves of a channel whose speed its act has changed. -/
theorem Sped.event {s y x t : State} {c : Nat} {v : Int} {course : Option PendingCourse} (p : Sped s y c v course)
    {w : Touched} {s0 : State} (h : Happens w s0 x t) (hc : x.chan c = y.chan c) (hh : y.handed <+: x.handed) :
    ((t.chan c).pos = (s.chan c).pos ∧ (t.chan c).dueIndex = (s.chan c).dueIndex ∧ (t.chan c).edge = (s.chan c).edge ∧
      (t.chan c).atEdge = (s.chan c).atEdge) ∧ (t.chan c).speed = v ∧ (t.chan c).course = course ∧
      ∀ q, (s.chan c).state = .running → (s.chan c).course = some q →
        Answered s0 t q.ticket.kind q.ticket.tag .superseded 0 [] := by
  have kept : (x.chan c).kept = (y.chan c).kept := by rw [hc]
  have place := (h.field kept Channel.place).trans p.place
  simp only [Channel.place, Prod.mk.injEq] at place
  exact ⟨place, (h.field kept (·.speed)).trans p.speed, (h.field kept (·.course)).trans p.course,
    fun q hs hq => h.answered (hh.subset (p.superseded q hs hq))⟩

/-- Settles O46: a speed is stored outside RUNNING, applied or left pending in RUNNING, and each way leaves the place (`Sped`). -/
theorem chanSpeedStoresOrPends : Obligations.ChanSpeedStoresOrPends := by
  rintro s tag a v hoff hc hs rfl
  have hb : badChannel (beginTake s) a.channel = false := badChannel_eq_false hc hs
  rw [← clampSpeed_eq]
  generalize hq : ticketOf s 55 tag = q
  have taken : ∀ {x : State}, doChanSpeed a q (beginTake s) = x → Does { chans := fun i => i = a.channel } (beginTake s) x →
      ∃ t, exec (.chanSpeed tag a) s = .next t ∧ Happens { chans := fun i => i = a.channel } s x t :=
    fun hx d => exec_happens hoff (hq ▸ hx) d
  have replied : ∀ {y : State} {n : Nat} {co : Option PendingCourse}, Sped (beginTake s) y a.channel (clampSpeed a.speed) co →
      Does { chans := fun i => i = a.channel } (beginTake s) (y.reply q .ok (speedItems (clampSpeed a.speed) n)) :=
    fun p => p.does.trans (Does.reply _ _ _ _)
  by_cases running : (s.chan a.channel).state = .running
  · have act := doChanSpeed_running q hb running
    by_cases pend : ∃ n, a.apply = some n ∧ later (BitVec.ofNat 32 n) (s.chan a.channel).dueIndex = true
    · obtain ⟨n, hn, hl⟩ := pend
      rw [hn] at act
      have p := speedRunning_later (s := beginTake s) q (clampSpeed a.speed) hl
      obtain ⟨t, ht, h⟩ := taken act p.does
      obtain ⟨⟨pos, due, edge, atEdge⟩, speed, course, superseded⟩ := p.event h rfl List.prefix_rfl
      refine ⟨t, ht, h.frame, pos, due, edge, atEdge, fun h => absurd running h, fun _ hno => ?_, fun m _ hm _ => ⟨speed, ?_⟩,
        superseded⟩
      · rw [hno n hn] at hl; cases hl
      · rw [hn] at hm; cases hm; rw [course, ← hq]; rfl
    · have now : ∀ n, a.apply = some n → later (BitVec.ofNat 32 n) (s.chan a.channel).dueIndex = false := fun n hn =>
        Bool.eq_false_iff.2 fun hl => pend ⟨n, hn, hl⟩
      obtain ⟨y, hy, p⟩ := speedRunning_now (s := beginTake s) q (clampSpeed a.speed) (changePeriod_now now)
      obtain ⟨t, ht, h⟩ := taken (act.trans hy) (replied p)
      obtain ⟨⟨pos, due, edge, atEdge⟩, speed, course, superseded⟩ := p.event h rfl (List.prefix_append _ _)
      refine ⟨t, ht, h.frame, pos, due, edge, atEdge, fun h => absurd running h, fun _ _ => ⟨speed, course, ?_⟩,
        fun n _ hn hl => absurd ⟨n, hn, hl⟩ pend, superseded⟩
      subst hq
      exact h.answered (handed_reply _ _ _ _)
  · obtain ⟨y, hy, p⟩ := doChanSpeed_outside q hb running
    obtain ⟨t, ht, h⟩ := taken hy (replied p)
    obtain ⟨⟨pos, due, edge, atEdge⟩, speed, -, superseded⟩ := p.event h rfl (List.prefix_append _ _)
    refine ⟨t, ht, h.frame, pos, due, edge, atEdge, fun _ => ⟨speed, ?_⟩, fun h => absurd h running,
      fun _ h => absurd h running, superseded⟩
    subst hq
    exact h.answered (handed_reply _ _ _ _)

end Sys2Proof.Machine

/-! SUPPORT. CHAN_OPTIONS and CHAN_DEPTH (R51, R52). -/

namespace Sys2Proof.Machine

/-- The channel with the align default and lead margin of a CHAN_OPTIONS (R51). -/
def Channel.withMargin (a : ChanOptionsArgs) (ch : Channel) : Channel :=
  { ch with alignDefault := a.alignDefault, leadMargin := a.leadMargin }

/-- What CHAN_OPTIONS gives a channel (R51). -/
def Channel.options (ch : Channel) : Bool × Bool × Nat × Nat × Bool × Nat :=
  (ch.loop, ch.follow, ch.inPoint, ch.lastFrame, ch.alignDefault, ch.leadMargin)

/-- The due index is at the live edge only where a following channel is held at 16L (R77). -/
def Channel.EdgeHeld (ch : Channel) : Prop := ch.atEdge = true → ch.follow = true ∧ ch.pos = 16 * (ch.lastFrame : Int)

theorem Channel.withOptions_atEdge {ch : Channel} (h : ch.EdgeHeld) (a : ChanOptionsArgs) (l : Nat) :
    (ch.withOptions a l).atEdge = (ch.atEdge && a.follow && l == ch.lastFrame) := by
  show (ch.atEdge && (a.follow && l == ch.lastFrame && ch.pos == 16 * (l : Int))) = _
  cases ha : ch.atEdge with
  | false => rfl
  | true =>
    obtain ⟨-, hp⟩ := h ha
    by_cases hl : l = ch.lastFrame
    · subst hl; simp [hp]
    · simp [hl]

/-- The options of a request stand in `y`, with the course otherwise as it was. -/
structure OptionsSet (s y : State) (a : ChanOptionsArgs) (l : Nat) : Prop where
  does : Does { chans := fun c => c = a.channel } s y
  options : (y.chan a.channel).options = (a.loop, a.follow, a.inPoint, l, a.alignDefault, a.leadMargin)
  speed : (y.chan a.channel).speed = (s.chan a.channel).speed
  dueIndex : (y.chan a.channel).dueIndex = (s.chan a.channel).dueIndex
  pos : (s.chan a.channel).state ≠ .running → (y.chan a.channel).pos = clampPosition a.inPoint l (s.chan a.channel).pos
  state : (y.chan a.channel).state = (s.chan a.channel).state
  atEdge : (s.chan a.channel).EdgeHeld →
    (y.chan a.channel).atEdge = ((s.chan a.channel).atEdge && a.follow && l == (s.chan a.channel).lastFrame)

section
variable {s : State} {a : ChanOptionsArgs} {l : Nat}

/-- The options of a request given to a channel, all its course by them. -/
theorem OptionsSet.ofKept {y : State} {ch : Channel} (does : Does { chans := fun c => c = a.channel } s y)
    (state : (y.chan a.channel).state = (s.chan a.channel).state) (kept : (y.chan a.channel).kept = (ch.withOptions a l).kept)
    (was : (ch.speed, ch.dueIndex, ch.pos, ch.atEdge, ch.follow, ch.lastFrame) = ((s.chan a.channel).speed,
      (s.chan a.channel).dueIndex, (s.chan a.channel).pos, (s.chan a.channel).atEdge, (s.chan a.channel).follow,
      (s.chan a.channel).lastFrame)) : OptionsSet s y a l := by
  simp only [Prod.mk.injEq] at was
  obtain ⟨speed, due, pos, edge, follow, last⟩ := was
  have field : ∀ {β : Type} (f : Channel → β), (∀ ch : Channel, f ch.kept = f ch) → f (y.chan a.channel) = f (ch.withOptions a l) :=
    fun f hf => by rw [← hf, kept, hf]
  refine ⟨does, field Channel.options fun _ => rfl, (field (·.speed) fun _ => rfl).trans speed,
    (field (·.dueIndex) fun _ => rfl).trans due, fun _ => ?_, state, fun held => ?_⟩
  · rw [← pos]; exact field (·.pos) fun _ => rfl
  · rw [← edge, ← last, field (·.atEdge) fun _ => rfl]
    refine Channel.withOptions_atEdge ?_ a l
    unfold Channel.EdgeHeld at *
    rwa [edge, follow, pos, last]

/-- The options a RUNNING channel already has (R51). -/
theorem OptionsSet.same (same : (s.chan a.channel).sameOptions a l = true) (running : (s.chan a.channel).state = .running) :
    OptionsSet s (s.modChan a.channel (Channel.withMargin a)) a l := by
  have chan := State.chan_modChan_self s a.channel (Channel.withMargin a)
  simp only [Channel.sameOptions, Bool.and_eq_true, beq_iff_eq] at same
  obtain ⟨⟨⟨loop, follow⟩, inPoint⟩, last⟩ := same
  refine ⟨Does.modChan _ _ _ (.inl rfl), ?_, congrArg (·.speed) chan, congrArg (·.dueIndex) chan, fun h => absurd running h,
    congrArg (·.state) chan, fun held => (congrArg (·.atEdge) chan).trans ?_⟩
  · rw [chan, ← loop, ← follow, ← inPoint, ← last]; rfl
  · rw [← follow, ← last]
    show (s.chan a.channel).atEdge = _
    cases ha : (s.chan a.channel).atEdge with
    | false => rfl
    | true => rw [(held ha).1]; simp

theorem setOptions_set (s : State) (a : ChanOptionsArgs) (l : Nat) : OptionsSet s (setOptions s a l) a l := by
  unfold setOptions
  dsimp only
  split
  · rename_i running
    have given := State.chan_modChan_self s a.channel (Channel.withMargin a)
    split
    · rename_i same
      exact OptionsSet.same same running
    · obtain ⟨kept, state⟩ := courseChange_chan (s.modChan a.channel (Channel.withMargin a)) a.channel .trim
        (s.chan a.channel).dueIndex (fun ch => ch.withOptions a l)
      rw [given] at kept state
      exact OptionsSet.ofKept ((Does.modChan _ _ _ (.inl rfl)).trans (courseChange_does _ _ _ rfl)) state kept rfl
  · have stays := recompute_kept (s.modChan a.channel (fun ch => ch.withOptions a l)) a.channel .trim
      (s.chan a.channel).dueIndex a.channel
    rw [State.chan_modChan_self] at stays
    exact OptionsSet.ofKept ((Does.modChan _ _ _ (.inl rfl)).trans (recompute_does _ _ _ _)) stays.2 stays.1 rfl

/-- The checks of R47 pass. -/
theorem boundsFault_eq_none {s : State} {follow : Bool} {i l length : Nat} (hi : i ≤ chosenLast follow l length)
    (hl : follow = true ∨ l + 1 ≤ length) (p q : Nat) : boundsFault s follow i l length p q = none := by
  unfold boundsFault
  rw [if_neg (Nat.not_lt.2 hi), if_neg]
  cases follow with
  | true => simp
  | false => simpa using hl

theorem doChanOptions_ok (q : Ticket) (hb : badChannel s a.channel = false) (bound : (s.chan a.channel).clip ≠ 0)
    (margin : a.leadMargin ≤ 2700000) (hi : a.inPoint ≤ chosenLast a.follow a.lastFrame (s.clip (s.chan a.channel).clip).length)
    (hl : a.follow = true ∨ a.lastFrame + 1 ≤ (s.clip (s.chan a.channel).clip).length) {y : State}
    (hy : setOptions s a (chosenLast a.follow a.lastFrame (s.clip (s.chan a.channel).clip).length) = y) :
    doChanOptions a q s = y.reply q .ok
      [item4 (y.chan a.channel).inPoint, item4 (y.chan a.channel).lastFrame, item4s (y.chan a.channel).pos] := by
  subst hy
  unfold doChanOptions
  dsimp only
  rw [if_neg (by rw [hb]; decide), if_neg bound, if_neg (by simp only [Config.maxLead]; omega), boundsFault_eq_none hi hl]

end

/-! ## CHAN_DEPTH -/

theorem clampNat_zero (hi v : Nat) : clampNat 0 hi v = min hi v := by unfold clampNat; rw [Nat.zero_max]

theorem depthReport_eq (prime sustain periods : Nat) : depthReport (depthItems prime sustain periods) =
    [item1 (min 32 (max 1 prime)), item1 (min 32 (max 1 sustain)), item2 (min 1023 periods)] := by
  unfold depthReport depthItems
  rw [clampNat_zero]
  rfl

/-- New depths, by the clamps of R52. -/
theorem Channel.withDepths_kept (ch : Channel) (prime sustain periods : Nat) :
    (ch.withDepths (depthItems prime sustain periods)).kept = ({ ch with
      primeDepth := min 32 (max 1 prime), sustainDepth := min 32 (max 1 sustain), primePeriods := min 1023 periods
      remaining := if ch.phase = .prime then min ch.remaining (min 1023 periods) else ch.remaining
      phase := if ch.phase = .prime ∧ 0 < ch.remaining ∧ periods = 0 then .sustain else ch.phase } : Channel).kept := by
  have remaining : (if (ch.phase == .prime && decide (ch.remaining > min 1023 periods)) = true then min 1023 periods
      else ch.remaining) = if ch.phase = .prime then min ch.remaining (min 1023 periods) else ch.remaining := by
    cases ch.phase with
    | sustain => rfl
    | prime =>
      by_cases h : ch.remaining > min 1023 periods
      · simp only [h, decide_true, beq_self_eq_true, Bool.and_self, if_true, Nat.min_eq_right h.le]
      · simp [h, Nat.min_eq_left (Nat.not_lt.1 h)]
  have phase : (if (ch.phase == .prime && decide (ch.remaining > min 1023 periods) && min 1023 periods == 0) = true
      then Phase.sustain else ch.phase) = if ch.phase = .prime ∧ 0 < ch.remaining ∧ periods = 0 then .sustain else ch.phase := by
    cases ch.phase with
    | sustain => rfl
    | prime =>
      refine if_congr ?_ rfl rfl
      simp
      omega
  rw [← remaining, ← phase]
  unfold Channel.withDepths depthItems
  dsimp only
  rw [clampNat_zero]
  rfl

/-- Settles O41: the options by `setOptions_set`, the depths by `Channel.withDepths_kept`. -/
theorem chanOptionsAndDepthStored : Obligations.ChanOptionsAndDepthStored := by
  refine ⟨?_, ?_⟩
  · rintro s tag a length last hoff hc hs bound margin rfl rfl hi hl
    have set := setOptions_set (beginTake s) a (chosenLast a.follow a.lastFrame (s.clip (s.chan a.channel).clip).length)
    have act := doChanOptions_ok (s := beginTake s) (ticketOf s 50 tag) (badChannel_eq_false hc hs) bound margin hi hl rfl
    rw [beginTake_clip, beginTake_chan] at act
    generalize setOptions (beginTake s) a _ = y at set act
    obtain ⟨t, ht, h⟩ := exec_happens hoff act (set.does.trans (Does.reply _ _ _ _))
    have kept : ∀ {β : Type} (f : Channel → β), (∀ ch : Channel, f ch.kept = f ch) → f (t.chan a.channel) = f (y.chan a.channel) :=
      fun f hf => h.field (ch := y.chan a.channel) rfl f hf
    have options := (kept Channel.options fun _ => rfl).trans set.options
    have answered := h.answered (handed_reply y (ticketOf s 50 tag) _ _)
    have given := set.options
    simp only [Channel.options, Prod.mk.injEq] at options given
    obtain ⟨loop, follow, inPoint, lastFrame, align, lead⟩ := options
    obtain ⟨-, -, inGiven, lastGiven, -, -⟩ := given
    rw [inGiven, lastGiven, ← kept (·.pos) fun _ => rfl] at answered
    refine ⟨t, ht, h.frame, loop, follow, inPoint, lastFrame, align, lead, (kept (·.speed) fun _ => rfl).trans set.speed,
      (kept (·.dueIndex) fun _ => rfl).trans set.dueIndex, fun h => (kept (·.pos) fun _ => rfl).trans (set.pos h),
      fun running => h.state (set.state.trans running) (by decide),
      fun held => (kept (·.atEdge) fun _ => rfl).trans (set.atEdge ?_),
      answered⟩
    obtain ⟨-, -, -, -, edge⟩ := held a.channel
    exact edge
  · intro s tag a hoff hc hs
    have hb : badChannel (beginTake s) a.channel = false := badChannel_eq_false hc hs
    have act : doChanDepth a (ticketOf s 51 tag) (beginTake s) = _ := if_neg (by rw [hb]; decide)
    obtain ⟨t, ht, h⟩ := exec_happens (w := { chans := fun c => c = a.channel }) hoff act
      ((Does.modChan _ _ _ (.inl rfl)).trans (Does.reply _ _ _ _))
    have chan := State.chan_modChan_self (beginTake s) a.channel
      (fun ch => ch.withDepths (depthItems a.primeDepth a.sustainDepth a.primePeriods))
    refine ⟨t, ht, h.frame, (h.ends.chans _).trans ?_, ?_⟩
    · exact (congrArg (fun ch => ch.kept) chan).trans (Channel.withDepths_kept _ _ _ _)
    · rw [← depthReport_eq]
      exact h.answered (handed_reply _ (ticketOf s 51 tag) _ _)

end Sys2Proof.Machine

/-! SUPPORT. CHAN_CUE and CHAN_JUMP (R53, R54, R62). -/

namespace Sys2Proof.Machine

/-- The channel at a position with PRIME restarted, not at the live edge (R53, R62). -/
def Channel.recued (p : Int) (ch : Channel) : Channel := { ch.prime with pos := p, atEdge := false }

/-- The channel CUEING for a request from a house time on (R53). -/
def Channel.cueing (q : CueRequest) (now : Nat) (ch : Channel) : Channel :=
  { ch with state := .cueing, cue := some q, cueExpiry := some (now + Config.cueTicks), base := some now }

/-- The channel at the position of a jump in RUNNING, not at the live edge (R62, R77). -/
def Channel.jumped (p : Int) (ch : Channel) : Channel := { ch with pos := p, edge := false, atEdge := false }

theorem Channel.bare_congr (f : Channel → Channel) {a b : Channel} (h : a.bare = b.bare)
    (hf : ∀ ch : Channel, (f ch.bare).bare = (f ch).bare := by exact fun _ => rfl) : (f a).bare = (f b).bare := by
  rw [← hf, h, hf]

section
variable {s : State}

theorem cueTo_eq (s : State) (c : Nat) (q : Ticket) (position : Int) {p : Int}
    (hp : p = clampPosition (s.chan c).inPoint (s.chan c).lastFrame position) : cueTo s c q position =
      (recompute ((endCue s c .superseded).modChan c (Channel.recued p)) c .cue (s.chan c).dueIndex).modChan c
        (Channel.cueing ⟨q, p⟩ s.now) := by
  subst hp
  unfold cueTo
  dsimp only
  rw [endCue_chan]
  rfl

/-- The record a cue leaves, but for the list. -/
theorem cueTo_bare (s : State) (c : Nat) (q : Ticket) (position : Int) {p : Int}
    (hp : p = clampPosition (s.chan c).inPoint (s.chan c).lastFrame position) :
    ((cueTo s c q position).chan c).bare = (((s.chan c).recued p).cueing ⟨q, p⟩ s.now).bare := by
  rw [cueTo_eq s c q position hp, State.chan_modChan_self]
  have list := recompute_bare ((endCue s c .superseded).modChan c (Channel.recued p)) c .cue (s.chan c).dueIndex c
  rw [State.chan_modChan_self, endCue_chan] at list
  exact (Channel.bare_congr (Channel.cueing ⟨q, p⟩ s.now) list).trans rfl

/-- After an older cue has been answered, a cue writes its channel alone. -/
theorem cueTo_after (s : State) (c : Nat) (q : Ticket) (position : Int) :
    Does { chans := fun i => i = c } (endCue s c .superseded) (cueTo s c q position) := by
  rw [cueTo_eq s c q position rfl]
  exact ((Does.modChan _ c _ (.inl rfl)).trans (recompute_does _ _ _ _)).trans (Does.modChan _ c _ (.inl rfl))

theorem cueTo_does (s : State) (c : Nat) (q : Ticket) (position : Int) :
    Does { chans := fun i => i = c } s (cueTo s c q position) := (endCue_does s c _ rfl).trans (cueTo_after s c q position)

theorem Channel.cueing_recued_kept (ch : Channel) (p : Int) (q : CueRequest) (now : Nat) : ((ch.recued p).cueing q now).kept =
    ({ ch with
      pos := p, phase := if ch.primePeriods = 0 then .sustain else .prime, remaining := ch.primePeriods, base := some now
      atEdge := false } : Channel).kept := rfl

theorem Channel.recued_phaseDepth (ch : Channel) (p : Int) :
    (ch.recued p).phaseDepth = if ch.primePeriods = 0 then ch.sustainDepth else ch.primeDepth := by
  unfold Channel.phaseDepth Channel.recued Channel.prime
  by_cases h : ch.primePeriods = 0 <;> simp [h]

/-- The request that cues a channel outside RUNNING. -/
theorem cueTo_of_request {tag kind : Nat} {a : PositionArgs} {i : Instr} (hb : badChannel s a.channel = false)
    (hs : (s.chan a.channel).state ≠ .running) (bound : (s.chan a.channel).clip ≠ 0)
    (long : (s.clip (s.chan a.channel).clip).length ≠ 0)
    (hi : (i = .chanCue tag a ∧ kind = 52 ∧ Offered s tag (.chanCue a)) ∨
      (i = .chanJump tag a ∧ kind = 56 ∧ Offered s tag (.chanJump a) ∧ (s.chan a.channel).state ≠ .idle)) :
    ∃ r, i = rowOf tag r ∧ kind = r.kind ∧ Offered s tag r ∧
      ∀ q, ownerAct r q (beginTake s) = cueTo (beginTake s) a.channel q a.position := by
  have bad : ¬badChannel (beginTake s) a.channel = true := by
    rw [show badChannel (beginTake s) a.channel = badChannel s a.channel from rfl, hb]; decide
  rcases hi with ⟨rfl, rfl, hoff⟩ | ⟨rfl, rfl, hoff, idle⟩
  · refine ⟨.chanCue a, rfl, rfl, hoff, fun q => ?_⟩
    show doChanCue a q (beginTake s) = _
    unfold doChanCue
    exact ((if_neg bad).trans (if_neg (not_or.2 ⟨bound, hs⟩))).trans (if_neg long)
  · refine ⟨.chanJump a, rfl, rfl, hoff, fun q => ?_⟩
    show doChanJump a q (beginTake s) = _
    unfold doChanJump
    exact (((if_neg bad).trans (if_neg (not_or.2 ⟨bound, idle⟩))).trans (if_neg long)).trans (if_neg hs)

theorem doChanJump_running {a : PositionArgs} {p : Int} (q : Ticket)
    (hp : p = clampPosition (s.chan a.channel).inPoint (s.chan a.channel).lastFrame a.position)
    (hb : badChannel s a.channel = false) (hs : (s.chan a.channel).state = .running) (bound : (s.chan a.channel).clip ≠ 0)
    (long : (s.clip (s.chan a.channel).clip).length ≠ 0) : doChanJump a q s =
      (courseChange s a.channel .rebuild (s.chan a.channel).dueIndex (Channel.jumped p)).reply q .ok
        [item1 0, item1 0, item4s p, item4 (s.chan a.channel).dueIndex.toNat] := by
  subst hp
  unfold doChanJump
  exact (((if_neg (by rw [hb]; decide)).trans (if_neg (not_or.2 ⟨bound, by rw [hs]; decide⟩))).trans
    (if_neg long)).trans (if_pos hs)

end

/-- Settles O42: a cue leaves the record of `cueTo_bare`, which the event keeps or completes (`Leaves`); a jump in RUNNING is a
course change of the rebuild class. -/
theorem cuesAndJumpsMoveThePosition : Obligations.CuesAndJumpsMoveThePosition := by
  refine ⟨?_, ?_⟩
  · intro s tag kind a i hc hs running bound long hi
    obtain ⟨r, rfl, rfl, hoff, act⟩ := cueTo_of_request (badChannel_eq_false hc hs) running bound long hi
    generalize hp : clampPosition (s.chan a.channel).inPoint (s.chan a.channel).lastFrame a.position = p
    obtain ⟨t, ht, h⟩ := exec_happens hoff (act _) (cueTo_does _ _ _ _)
    have bare := cueTo_bare (beginTake s) a.channel (ticketOf s r.kind tag) a.position hp.symm
    have handed := (cueTo_after (beginTake s) a.channel (ticketOf s r.kind tag) a.position).handed
    rw [beginTake_chan, beginTake_now] at bare
    generalize cueTo (beginTake s) a.channel _ a.position = x at h bare handed
    have kept := Channel.kept_of_bare bare
    have field : ∀ {β : Type} (f : Channel → β), (∀ ch : Channel, f ch.bare = f ch) → f (x.chan a.channel) =
        f (((s.chan a.channel).recued p).cueing ⟨ticketOf s r.kind tag, p⟩ s.now) := fun f hf => by rw [← hf, bare, hf]
    have pos : (t.chan a.channel).pos = p := h.field kept (·.pos)
    have cue := field (·.cue) fun _ => rfl
    refine ⟨t, ht, h.frame, ?_, ((h.ends.chans _).trans kept).trans (Channel.cueing_recued_kept _ _ _ _),
      fun p hp => h.answered (handed.subset (endCue_handed _ hp))⟩
    rw [pos]
    rcases h.leaves.cues a.channel with ⟨state, stands, expiry⟩ | done
    · exact .inl ⟨state.trans (field (·.state) fun _ => rfl), stands.trans cue, expiry.trans (field (·.cueExpiry) fun _ => rfl)⟩
    · obtain ⟨n, hn, told⟩ := done.told _ cue
      have depth := (field Channel.phaseDepth fun _ => rfl).trans (Channel.recued_phaseDepth (s.chan a.channel) p)
      exact .inr ⟨done.state, done.cue, done.expiry, done.flag, n, depth ▸ hn, h.told told⟩
  · intro s tag a hoff hc running bound long
    have hb : badChannel (beginTake s) a.channel = false := badChannel_eq_false hc (by rw [beginTake_chan, running]; decide)
    generalize hp : clampPosition (s.chan a.channel).inPoint (s.chan a.channel).lastFrame a.position = p
    have act := doChanJump_running (s := beginTake s) (ticketOf s 56 tag) hp.symm hb running bound long
    obtain ⟨kept, state⟩ := courseChange_chan (beginTake s) a.channel .rebuild (s.chan a.channel).dueIndex (Channel.jumped p)
    obtain ⟨t, ht, h⟩ := exec_happens (w := { chans := fun c => c = a.channel }) hoff act
      ((courseChange_does _ _ _ rfl).trans (Does.reply _ _ _ _))
    have pos : (t.chan a.channel).pos = p := h.field kept (·.pos)
    refine ⟨t, ht, h.frame, h.state (state.trans running) (by decide), (h.ends.chans _).trans kept, ?_, fun q hq => ?_⟩
    · rw [pos]
      exact h.answered (handed_reply _ (ticketOf s 56 tag) _ _)
    · exact h.answered (List.mem_append_left _ (courseChange_handed _ _ _ hq))

end Sys2Proof.Machine

/-! SUPPORT. Starts (R55 to R57, R167): CHAN_START, and the house times of a channel before it runs. -/

namespace Sys2Proof.Machine

/-! ## A start that fires -/

/-- A channel RUNNING with its first due time; EDGE by whether the due index is at the live edge (R57, R70). -/
def Channel.started (due : Nat) (ch : Channel) : Channel :=
  { ch.judged with state := .running, dueTime := some due, base := none, edge := ch.atEdge }

/-- A cue that waits is cut short by a start (R54). -/
def cutIfCueing (s : State) (c : Nat) : State := if (s.chan c).state = .cueing then cutCue s c else s

theorem cutIfCueing_follows (s : State) (c : Nat) : Follows s (cutIfCueing s c) := by
  unfold cutIfCueing
  split
  · rename_i h; exact completeCue_follows s c true _ h
  · exact Follows.refl s

theorem cutIfCueing_state (s : State) (c : Nat) : ((cutIfCueing s c).chan c).state =
    if (s.chan c).state = .cueing then .cued else (s.chan c).state := by
  unfold cutIfCueing
  split
  · unfold cutCue
    rw [completeCue_chan, if_pos rfl]
  · rfl

section
variable {s : State} {c : Nat}

theorem fireStart_eq (q : Ticket) (time : Nat) (noRef : Bool) (hl : (s.clip (s.chan c).clip).length ≠ 0) :
    fireStart s c q time noRef = ((cutIfCueing s c).modChan c (Channel.started (time + (s.chan c).period))).reply q .ok
      (startItems noRef (s.chan c).dueIndex time (time + (s.chan c).period)) := if_neg hl

/-- What a start that fires leaves: its channel RUNNING and its answer handed over (R57). -/
structure Fires (s x : State) (c : Nat) (q : Ticket) (time : Nat) (noRef : Bool) : Prop where
  does : Does { chans := fun i => i = c } s x
  kept : (x.chan c).kept = ((s.chan c).started (time + (s.chan c).period)).kept
  state : (x.chan c).state = .running
  handed : (⟨q, .ok, false, 0, startItems noRef (s.chan c).dueIndex time (time + (s.chan c).period)⟩ : Handed) ∈ x.handed

theorem fireStart_fires (q : Ticket) (time : Nat) (noRef : Bool) (hl : (s.clip (s.chan c).clip).length ≠ 0) :
    Fires s (fireStart s c q time noRef) c q time noRef := by
  rw [fireStart_eq q time noRef hl]
  have cut := cutIfCueing_follows s c
  have chan := State.chan_modChan_self (cutIfCueing s c) c (Channel.started (time + (s.chan c).period))
  refine ⟨(cut.does.trans (Does.modChan _ c _ (.inl rfl))).trans (Does.reply _ _ _ _), ?_, congrArg (·.state) chan,
    handed_reply _ _ _ _⟩
  have started : ∀ ch : Channel, (ch.kept.started (time + (s.chan c).period)).kept = (ch.started (time + (s.chan c).period)).kept :=
    fun _ => rfl
  rw [State.reply_chan, chan, ← started, cut.chans c, started]

/-! ## A pending start -/

/-- A channel's pending start is taken from it, with its start wait. -/
def takeStart (s : State) (c : Nat) : State := (cancelWait s c).modChan c (fun ch => { ch with start := none })

theorem takeStart_chan (s : State) (c : Nat) : (takeStart s c).chan c = { s.chan c with start := none } :=
  State.chan_modChan_self (cancelWait s c) c _

theorem takeStart_does (s : State) (c : Nat) : Does { time := true, chans := fun i => i = c } s (takeStart s c) :=
  (Does.ofWaits s _ rfl).trans (Does.modChan _ c _ (.inl rfl))

theorem cancelWait_wait (s : State) (c : Nat) : tget none (cancelWait s c).time.waits c = none :=
  show tget none (tset none s.time.waits c none) c = none from tget_tset_self _ _ _ _

theorem firePending_eq {q : PendingStart} (hq : (s.chan c).start = some q) (time : Nat) (noRef : Bool) :
    firePending s c time noRef = fireStart (takeStart s c) c q.ticket time noRef := by
  unfold firePending
  rw [hq]
  rfl

/-- An event that fires a pending start (R56, R57). -/
theorem firePending_happens {q : PendingStart} (hq : (s.chan c).start = some q) (time : Nat) (noRef : Bool)
    (hl : (s.clip (s.chan c).clip).length ≠ 0) {t : State} (ht : t = endEvent s (firePending s c time noRef)) :
    Frame { time := true, chans := fun k => k = c } s t ∧ (t.chan c).state = .running ∧
      (t.chan c).kept = (({ s.chan c with start := none } : Channel).started (time + (s.chan c).period)).kept ∧
      tget none t.time.waits c = none ∧ Answered s t q.ticket.kind q.ticket.tag .ok 0
        (startItems noRef (s.chan c).dueIndex time (time + (s.chan c).period)) := by
  subst ht
  have chan := takeStart_chan s c
  have fires := fireStart_fires (s := takeStart s c) (c := c) q.ticket time noRef (by rw [chan]; exact hl)
  rw [firePending_eq hq]
  have h := ((takeStart_does s c).trans (fires.does.mono (v := { time := true, chans := fun k => k = c }))).happens s
  have kept := fires.kept
  have handed := fires.handed
  rw [chan] at kept handed
  have waits : (fireStart (takeStart s c) c q.ticket time noRef).time = (cancelWait s c).time := fires.does.frame.time rfl
  refine ⟨h.frame, h.state fires.state (by decide), (h.ends.chans c).trans kept, ?_, h.answered handed⟩
  rw [h.ends.time, waits]
  exact cancelWait_wait s c

end

/-! ## The house times of a channel -/

theorem reached_of_le {s : State} {n : Nat} (h : n ≤ s.time.house) : reached s (some n) = true := decide_eq_true h

/-- CUE_EXPIRY cuts the cue short (R54). -/
theorem cueExpiry_cuts {s : State} {c e : Nat} (hs : (s.chan c).state = .cueing) (he : (s.chan c).cueExpiry = some e)
    (hr : e ≤ s.time.house) : exec (.cueExpiry c) s = .next (endEvent s (cutCue s c)) :=
  congrArg Host.Outcome.next (if_pos ⟨hs, by rw [he]; exact reached_of_le hr⟩)

theorem startTimeReached_fires {s : State} {c time : Nat} {q : Ticket} (hq : (s.chan c).start = some ⟨.atTime time, q⟩)
    (hr : time ≤ s.time.house) : exec (.startTimeReached c) s = .next (endEvent s (firePending s c time false)) := by
  have ht : (s.chan c).startTime = some time := by unfold Channel.startTime; rw [hq]
  show Host.Outcome.next (if reached s (s.chan c).startTime = true then
    endEvent s (firePending s c ((s.chan c).startTime.getD 0) false) else s) = _
  rw [ht, if_pos (reached_of_le hr)]
  rfl

/-- Settles O44: the expiry is a cue's completion (`completeCue_chan`), the two start times fire a pending start. -/
theorem channelTimesReached : Obligations.ChannelTimesReached := by
  refine ⟨?_, ?_, ?_⟩
  · intro s c e q hs he hr hq
    have cut := completeCue_follows s c true (cueLeft s (s.chan c)) hs
    have chan := (completeCue_chan s c true (cueLeft s (s.chan c)) c).trans (if_pos rfl)
    have h : Happens { chans := fun k => k = c } s (cutCue s c) (endEvent s (cutCue s c)) := cut.does.happens s
    refine ⟨_, cueExpiry_cuts hs he hr, h.frame, h.state (congrArg (·.state) chan) (by decide),
      (h.ends.chans c).trans (cut.chans c), ?_, h.answered (completeCue_handed true _ hq)⟩
    obtain ⟨f, hf⟩ := h.ends.flags c
    rw [hf, show ((cutCue s c).chan c).flags = _ from congrArg (·.flags) chan]
    exact (by decide : ∀ f g : BitVec 7, (f ||| ChanFlag.cued ||| flagIf true ChanFlag.short ||| g) &&&
      (ChanFlag.cued ||| ChanFlag.short) = 3) _ _
  · intro s c time q hq hr hl
    obtain ⟨frame, state, kept, -, answered⟩ := firePending_happens hq time false hl rfl
    have field : ∀ {β : Type} (f : Channel → β), (∀ ch : Channel, f ch.kept = f ch) → _ := fun f hf =>
      (hf _).symm.trans ((congrArg f kept).trans (hf _))
    exact ⟨_, startTimeReached_fires hq hr, frame, state, field (·.start) fun _ => rfl, field (·.dueIndex) fun _ => rfl,
      field (·.edge) fun _ => rfl, field (·.dueTime) fun _ => rfl, answered⟩
  · intro s c limit q hw hr hq hl
    obtain ⟨frame, state, kept, waits, answered⟩ := firePending_happens hq s.now true hl rfl
    have field : ∀ {β : Type} (f : Channel → β), (∀ ch : Channel, f ch.kept = f ch) → _ := fun f hf =>
      (hf _).symm.trans ((congrArg f kept).trans (hf _))
    exact ⟨_, congrArg Host.Outcome.next (if_pos (by rw [hw]; exact reached_of_le hr)), frame, state,
      field (·.start) fun _ => rfl, waits, field (·.edge) fun _ => rfl, field (·.dueTime) fun _ => rfl, answered⟩

end Sys2Proof.Machine

/-! SUPPORT. CHAN_START (R55). -/

namespace Sys2Proof.Machine

/-- The channel before its start: an older start answered, a waiting cue cut short (R54, R55). -/
def beforeStart (s : State) (c : Nat) : State := cutIfCueing (endStart s c .superseded) c

section
variable {s : State} {c : Nat}

theorem beforeStart_does (s : State) (c : Nat) : Does { time := true, chans := fun i => i = c } s (beforeStart s c) :=
  (endStart_does s c _ rfl rfl).trans (cutIfCueing_follows _ c).does

theorem beforeStart_kept (s : State) (c : Nat) :
    ((beforeStart s c).chan c).kept = ({ s.chan c with start := none } : Channel).kept := by
  rw [← endStart_chan s c .superseded]
  exact (cutIfCueing_follows _ c).chans c

theorem beforeStart_state (h : (s.chan c).state = .cueing ∨ (s.chan c).state = .cued ∨ (s.chan c).state = .held) :
    ((beforeStart s c).chan c).state = .cued ∨ ((beforeStart s c).chan c).state = .held := by
  unfold beforeStart
  rw [cutIfCueing_state, endStart_chan]
  rcases h with h | h | h <;> simp [h]

/-- A start leaves house time and the calibration; it writes the waits alone. -/
theorem endStart_time (s : State) (c : Nat) (r : Result) : ∃ x, (endStart s c r).time = { s.time with waits := x } := by
  unfold endStart
  split
  · exact ⟨_, rfl⟩
  · exact ⟨_, rfl⟩

theorem waitLimit_beforeStart (s : State) (c : Nat) (period : Nat) :
    waitLimit (beforeStart s c).time period = waitLimit s.time period := by
  obtain ⟨x, hx⟩ := endStart_time s c .superseded
  rw [show (beforeStart s c).time = _ from (cutIfCueing_follows (endStart s c .superseded) c).time, hx]
  rfl

theorem doChanStart_ok {a : ChanStartArgs} {ask : StartAsk} (q : Ticket) (hb : badChannel s a.channel = false)
    (hs : (s.chan a.channel).state = .cueing ∨ (s.chan a.channel).state = .cued ∨ (s.chan a.channel).state = .held)
    (hl : (s.clip (s.chan a.channel).clip).length ≠ 0) (ha : startAsk a.form (s.chan a.channel).alignDefault = some ask) :
    doChanStart a q s = startAs (beforeStart s a.channel) a.channel ask a.time q := by
  have same : ((endStart s a.channel .superseded).chan a.channel).state = (s.chan a.channel).state := by rw [endStart_chan]
  unfold doChanStart beforeStart cutIfCueing
  dsimp only
  rw [if_neg (by rw [hb]; decide), if_neg (by rcases hs with h | h | h <;> rw [h] <;> decide), ha, same]
  exact if_neg hl

/-! ## The three ways of a start -/

/-- A request that starts play at once (R55). -/
def startsAtOnce (a : ChanStartArgs) (align : Bool) (now : Nat) : Prop :=
  a.form = 0 ∨ (a.form = 3 ∧ align = false) ∨ (a.form = 1 ∧ a.time ≤ now)

/-- A request that starts play at the next reference pulse (R55). -/
def startsAtPulse (a : ChanStartArgs) (align : Bool) : Prop := a.form = 2 ∨ (a.form = 3 ∧ align = true)

theorem startAs_atOnce {u : State} {a : ChanStartArgs} {align : Bool} (q : Ticket) (h : startsAtOnce a align u.now) :
    ∃ ask, startAsk a.form align = some ask ∧ startAs u c ask a.time q = fireStart u c q u.now false := by
  rcases h with h | ⟨h, ha⟩ | ⟨h, ht⟩
  · exact ⟨.now, by rw [h]; rfl, rfl⟩
  · exact ⟨.now, by rw [h, ha]; rfl, rfl⟩
  · exact ⟨.atTime, by rw [h]; rfl, if_pos ht⟩

theorem startAs_later {u : State} {a : ChanStartArgs} (align : Bool) (q : Ticket) (hf : a.form = 1) (ht : u.now < a.time) :
    ∃ ask, startAsk a.form align = some ask ∧ startAs u c ask a.time q = setStart u c (.atTime a.time) q :=
  ⟨.atTime, by rw [hf]; rfl, if_neg (Nat.not_le.2 ht)⟩

theorem startAs_atPulse {u : State} {a : ChanStartArgs} {align : Bool} (q : Ticket) (h : startsAtPulse a align) :
    ∃ ask, startAsk a.form align = some ask ∧
      startAs u c ask a.time q = askWait (setStart u c .atReference q) c (u.chan c).period := by
  rcases h with h | ⟨h, ha⟩
  · exact ⟨.atReference, by rw [h]; rfl, rfl⟩
  · exact ⟨.atReference, by rw [h, ha]; rfl, rfl⟩

/-- A start in one of its ways: it leaves the record of channel `c` as `ch`, but for the list (R55). -/
structure Starts (s x : State) (c : Nat) (ch : Channel) : Prop where
  does : Does { time := true, chans := fun i => i = c } s x
  superseded : ∀ q, (s.chan c).start = some q → (⟨q.ticket, .superseded, false, 0, []⟩ : Handed) ∈ x.handed
  kept : (x.chan c).kept = ch.kept

theorem Starts.ofBefore {x : State} {ch : Channel} (d : Does { time := true, chans := fun i => i = c } (beforeStart s c) x)
    (kept : (x.chan c).kept = ch.kept) : Starts s x c ch :=
  ⟨(beforeStart_does s c).trans d,
    fun _ hq => d.handed.subset ((cutIfCueing_follows _ c).handed.subset (endStart_handed _ hq)), kept⟩

theorem fireStart_starts (q : Ticket) (time : Nat) (hl : (s.clip (s.chan c).clip).length ≠ 0) :
    Fires (beforeStart s c) (fireStart (beforeStart s c) c q time false) c q time false ∧
      Starts s (fireStart (beforeStart s c) c q time false) c
        (({ s.chan c with start := none } : Channel).started (time + (s.chan c).period)) := by
  have kept := beforeStart_kept s c
  have bound : ((beforeStart s c).chan c).clip = (s.chan c).clip := congrArg (fun ch => ch.clip) kept
  have clip : ∀ h, (beforeStart s c).clip h = s.clip h := fun h => by
    unfold State.clip; rw [(beforeStart_does s c).frame.map rfl]
  have fires := fireStart_fires (s := beforeStart s c) (c := c) q time false (by rw [bound, clip]; exact hl)
  have period : ((beforeStart s c).chan c).period = (s.chan c).period := congrArg (fun ch => ch.period) kept
  have started : ∀ (ch : Channel) due, (ch.kept.started due).kept = (ch.started due).kept := fun _ _ => rfl
  refine ⟨fires, Starts.ofBefore fires.does.mono (fires.kept.trans ?_)⟩
  rw [period, ← started, kept, started]

theorem setStart_starts (f : StartForm) (q : Ticket) :
    Starts s (setStart (beforeStart s c) c f q) c { s.chan c with start := some ⟨f, q⟩ } := by
  have given : ∀ ch : Channel, ({ ch.kept with start := some ⟨f, q⟩ } : Channel).kept =
    ({ ch with start := some ⟨f, q⟩ } : Channel).kept := fun _ => rfl
  refine Starts.ofBefore (Does.modChan _ c _ (.inl rfl)) ?_
  unfold setStart
  rw [State.chan_modChan_self, ← given, beforeStart_kept]
  rfl

theorem askWait_wait (s : State) (c period : Nat) :
    tget none (askWait s c period).time.waits c = some (waitLimit s.time period) :=
  show tget none (tset none s.time.waits c (some (waitLimit s.time period))) c = _ from tget_tset_self _ _ _ _

theorem askWait_starts {x : State} {ch : Channel} (p : Starts s x c ch) (period : Nat) : Starts s (askWait x c period) c ch :=
  ⟨p.does.trans (Does.ofWaits x _ rfl), p.superseded, p.kept⟩

/-- A way of starting leaves its channel in place, house time, and an older start answered. -/
theorem Starts.event {s0 x t : State} {ch : Channel} (p : Starts s x c ch)
    (h : Happens { time := true, chans := fun i => i = c } s0 x t) : t.time.house = s0.time.house ∧
      (t.chan c).dueIndex = ch.dueIndex ∧ (t.chan c).pos = ch.pos ∧
      ∀ q, (s.chan c).start = some q → Answered s0 t q.ticket.kind q.ticket.tag .superseded 0 [] :=
  ⟨(congrArg Timebase.house h.ends.time).trans h.does.now, h.field p.kept (·.dueIndex), h.field p.kept (·.pos),
    fun q hq => h.answered (p.superseded q hq)⟩

theorem setStart_state {f : StartForm} {q : Ticket} {w : Touched} {s0 t : State}
    (hs : (s.chan c).state = .cueing ∨ (s.chan c).state = .cued ∨ (s.chan c).state = .held)
    (h : Happens w s0 (setStart (beforeStart s c) c f q) t) : (t.chan c).state = .cued ∨ (t.chan c).state = .held := by
  have state : ((setStart (beforeStart s c) c f q).chan c).state = ((beforeStart s c).chan c).state :=
    congrArg (fun ch => ch.state) (State.chan_modChan_self _ c _)
  exact (beforeStart_state hs).imp (fun e => h.state (state.trans e) (by decide)) (fun e => h.state (state.trans e) (by decide))

end

/-- The three ways exclude each other (R55). -/
theorem starts_exclude {a : ChanStartArgs} {align : Bool} {now : Nat} : (startsAtOnce a align now → ¬(a.form = 1 ∧ now < a.time)) ∧
    (startsAtOnce a align now → ¬startsAtPulse a align) ∧ (startsAtPulse a align → a.form ≠ 1) := by
  unfold startsAtOnce startsAtPulse
  cases align <;> simp <;> omega

/-- Settles O43: a start fires at once (`fireStart_starts`), or is left pending (`setStart_starts`). -/
theorem chanStartStartsOrWaits : Obligations.ChanStartStartsOrWaits := by
  intro s tag a hoff hc hs hl hform
  generalize hq : ticketOf s 53 tag = q
  have hb : badChannel (beginTake s) a.channel = false :=
    badChannel_eq_false hc (by rcases hs with h | h | h <;> rw [beginTake_chan, h] <;> decide)
  have taken : ∀ {x : State} {ch : Channel}, (∃ ask, startAsk a.form (s.chan a.channel).alignDefault = some ask ∧
        startAs (beforeStart (beginTake s) a.channel) a.channel ask a.time q = x) → Starts (beginTake s) x a.channel ch →
      ∃ t, exec (.chanStart tag a) s = .next t ∧ Happens { time := true, chans := fun c => c = a.channel } s x t := by
    rintro x ch ⟨ask, hask, rfl⟩ p
    exact exec_happens hoff (hq ▸ doChanStart_ok q hb hs hl hask) p.does
  have now : (beforeStart (beginTake s) a.channel).now = s.time.house := (beforeStart_does _ _).now
  have period : ((beforeStart (beginTake s) a.channel).chan a.channel).period = (s.chan a.channel).period :=
    congrArg (fun ch => ch.period) (beforeStart_kept (beginTake s) a.channel)
  have due : ((beforeStart (beginTake s) a.channel).chan a.channel).dueIndex = (s.chan a.channel).dueIndex :=
    congrArg (fun ch => ch.dueIndex) (beforeStart_kept (beginTake s) a.channel)
  have way : startsAtOnce a (s.chan a.channel).alignDefault s.time.house ∨ (a.form = 1 ∧ s.time.house < a.time) ∨
      startsAtPulse a (s.chan a.channel).alignDefault := by
    unfold startsAtOnce startsAtPulse
    cases (s.chan a.channel).alignDefault <;> simp <;> omega
  obtain ⟨onceLater, oncePulse, pulseForm⟩ := starts_exclude (a := a)
    (align := (s.chan a.channel).alignDefault) (now := s.time.house)
  rcases way with once | ⟨form, later⟩ | pulse
  · obtain ⟨fires, p⟩ := fireStart_starts (s := beginTake s) (c := a.channel) q s.time.house hl
    obtain ⟨t, ht, h⟩ := taken (startAs_atOnce q (now.symm ▸ once)) (now.symm ▸ p)
    rw [now] at h
    obtain ⟨house, dueIndex, pos, superseded⟩ := p.event h
    have answered := h.answered fires.handed
    rw [due, period, ← hq] at answered
    exact ⟨t, ht, h.frame, house, dueIndex, pos, superseded, fun _ => ⟨h.state fires.state (by decide), h.field p.kept (·.start),
      h.field p.kept (·.edge), h.field p.kept (·.dueTime), answered⟩, fun form later => absurd ⟨form, later⟩ (onceLater once),
      fun pulse => absurd pulse (oncePulse once)⟩
  · have p := setStart_starts (s := beginTake s) (c := a.channel) (.atTime a.time) q
    obtain ⟨t, ht, h⟩ := taken (startAs_later _ q form (now.symm ▸ later)) p
    obtain ⟨house, dueIndex, pos, superseded⟩ := p.event h
    have start := h.field p.kept (·.start)
    exact ⟨t, ht, h.frame, house, dueIndex, pos, superseded, fun once => absurd ⟨form, later⟩ (onceLater once),
      fun _ _ => ⟨by rw [start, ← hq]; rfl, setStart_state (s := beginTake s) hs h⟩, fun pulse => absurd form (pulseForm pulse)⟩
  · have p := askWait_starts (setStart_starts (s := beginTake s) (c := a.channel) .atReference q)
      ((beforeStart (beginTake s) a.channel).chan a.channel).period
    obtain ⟨t, ht, h⟩ := taken (startAs_atPulse q pulse) p
    obtain ⟨house, dueIndex, pos, superseded⟩ := p.event h
    have start := h.field p.kept (·.start)
    refine ⟨t, ht, h.frame, house, dueIndex, pos, superseded, fun once => absurd pulse (oncePulse once),
      fun form => absurd form (pulseForm pulse), fun _ => ⟨by rw [start, ← hq]; rfl, ?_⟩⟩
    rw [h.ends.time, askWait_wait, period]
    exact congrArg some (waitLimit_beforeStart _ _ _)

end Sys2Proof.Machine

/-! SUPPORT. CHAN_HOLD (R61, R63, R101). -/

namespace Sys2Proof.Machine

/-! ## A REVOKE of the due index -/

theorem endCourse_ring (s : State) (c : Nat) (r : Result) (i : Nat) : (endCourse s c r).ring i = s.ring i := by
  unfold endCourse
  split <;> rfl

/-- The due time a RUNNING channel's REVOKE of its due index shows (R63, R72). -/
theorem Channel.dueLow_dueIndex {ch : Channel} (h : ch.state = .running) :
    ch.dueLow ch.dueIndex = ch.dueTime.getD 0 % 4294967296 := by
  have zero : periodsAfter ch.dueIndex ch.dueIndex = 0 := by simp [periodsAfter]
  unfold Channel.dueLow Channel.dueOf
  dsimp only
  rw [if_pos h, zero]
  cases ch.dueTime <;> simp

/-- At rest a REVOKE waits only for a free slot, or on a ring that closes (R97, R101). -/
theorem revoke_none_of_atRest {t : State} {c : Nat} (rest : AtRest t) (open' : (t.ring c).closing = false)
    (free : 0 < (t.ring c).free) :
    (t.ring c).revoke = none := by
  by_contra waits
  have listed : (c, t.ring c) ∈ t.rings := mem_of_tget_ne fun e => waits (congrArg Ring.revoke e)
  obtain ⟨-, -, -, -, -, -, deliver, -⟩ := settleStep_eq_none.1 rest.2
  rcases deliverOne_eq_none.1 (deliverStep_eq_none.1 deliver _ listed) with (h | h) | ⟨h, -⟩
  · rw [open'] at h; cases h
  · exact absurd h free.ne'
  · exact waits h

/-! ## HELD from RUNNING -/

/-- The channel HELD from RUNNING at a house time, with no due time and EDGE fallen (R61). -/
def Channel.stopped (now : Nat) (ch : Channel) : Channel :=
  { ch with state := .held, dueTime := none, base := some now, edge := false }

/-- The channel HELD outside RUNNING at a house time, its cue and start gone (R61). -/
def Channel.stilled (now : Nat) (ch : Channel) : Channel :=
  { ch with
    cue := none, cueExpiry := if ch.cue.isSome then none else ch.cueExpiry, start := none
    state := .held, base := if ch.state = .held then ch.base else some now }

section
variable {s : State} {c : Nat}

/-- The pending course answered and the records from the due index on revoked. -/
def holdRevoked (s : State) (c : Nat) : State := revokeFrom (endCourse s c .superseded) c (s.chan c).dueIndex false

theorem holdRunning_stays (s : State) (c : Nat) :
    Stays ((holdRevoked s c).modChan c (Channel.stopped s.now)) (holdRunning s c) c := by
  have stop : ∀ u, Stays (holdRevoked s c) u c →
      Stays ((holdRevoked s c).modChan c (Channel.stopped s.now)) (u.modChan c (Channel.stopped s.now)) c := fun u h =>
    ⟨by rw [State.chan_modChan_self, State.chan_modChan_self]; exact Channel.bare_congr (Channel.stopped s.now) h.bare,
      h.ring, h.now,      h.handed⟩
  refine stop _ ?_
  split
  · exact recompute_stays _ _ _ _ _
  · exact Stays.refl _ _

theorem holdRunning_after (s : State) (c : Nat) :
    Does { time := true, chans := fun k => k = c } (endCourse s c .superseded) (holdRunning s c) := by
  have stop : ∀ u, Does { time := true, chans := fun k => k = c } (holdRevoked s c) u →
      Does { time := true, chans := fun k => k = c } (endCourse s c .superseded) (u.modChan c (Channel.stopped s.now)) := fun u h =>
    ((revokeFrom_does _ _ _ _).trans h).trans (Does.modChan _ c _ (.inl rfl))
  refine stop _ ?_
  split
  · exact recompute_does _ _ _ _
  · exact Does.refl _

theorem holdRunning_does (s : State) (c : Nat) : Does { time := true, chans := fun k => k = c } s (holdRunning s c) :=
  (endCourse_does s c _ rfl).trans (holdRunning_after s c)

/-- The record a hold from RUNNING leaves, but for the list, the last record period and the flags. -/
theorem holdRunning_kept (s : State) (c : Nat) : ((holdRunning s c).chan c).state = .held ∧
    ((holdRunning s c).chan c).kept = (({ s.chan c with course := none } : Channel).stopped s.now).kept := by
  have stays := holdRunning_stays s c
  have chan := State.chan_modChan_self (holdRevoked s c) c (Channel.stopped s.now)
  have stopped : ∀ ch : Channel, (ch.kept.stopped s.now).kept = (ch.stopped s.now).kept := fun _ => rfl
  refine ⟨(stays.field (·.state)).trans (congrArg (fun ch => ch.state) chan), (Channel.kept_of_bare stays.bare).trans ?_⟩
  rw [chan, ← stopped, show ((holdRevoked s c).chan c).kept = _ from (revokeFrom_kept _ c _ _).1, endCourse_chan, stopped]

/-- What a hold from RUNNING revokes where records stand for the due index or later (R63). -/
theorem holdRunning_revokes (records : (s.chan c).recordFrom (s.chan c).dueIndex = true) :
    ((holdRunning s c).chan c).lastRecord = (s.chan c).priorRecord ∧
      (holdRunning s c).ring c = { s.ring c with
        revoke := some (earlierRevoke (s.ring c).revoke ((s.chan c).revokeAt (s.chan c).dueIndex))
        transfer := (s.ring c).transfer.map (fun t => t.voidFrom (s.chan c).dueIndex) } := by
  have stays := holdRunning_stays s c
  have revoked : holdRevoked s c = decideRevoke (endCourse s c .superseded) c (s.chan c).dueIndex false := by
    unfold holdRevoked revokeFrom
    rw [endCourse_chan]
    exact if_pos records
  have last : ((holdRevoked s c).chan c).lastRecord = (s.chan c).priorRecord := by
    rw [revoked, decideRevoke_chan, endCourse_chan]
    exact if_pos rfl
  have ring := decideRevoke_ring (endCourse s c .superseded) c (s.chan c).dueIndex false
  rw [← revoked, endCourse_ring, endCourse_chan] at ring
  refine ⟨(stays.field (·.lastRecord)).trans ?_, stays.ring.trans ring⟩
  exact (congrArg (fun ch => ch.lastRecord) (State.chan_modChan_self (holdRevoked s c) c (Channel.stopped s.now))).trans last

/-! ## HELD outside RUNNING -/

theorem holdStill_chan (s : State) (c : Nat) : (holdStill s c).chan c = (s.chan c).stilled s.now := by
  have chan : (endStart (endCue s c .superseded) c .superseded).chan c = { s.chan c with
      cue := none, cueExpiry := if (s.chan c).cue.isSome then none else (s.chan c).cueExpiry, start := none } := by
    rw [endStart_chan, endCue_chan]
  unfold holdStill Channel.stilled
  dsimp only
  split
  · rename_i held; rw [chan, ← held]
  · rw [State.chan_modChan_self, chan]

theorem holdStill_after (s : State) (c : Nat) :
    Does { time := true, chans := fun k => k = c } (endCue s c .superseded) (holdStill s c) ∧
    (endStart (endCue s c .superseded) c .superseded).handed <+: (holdStill s c).handed := by
  unfold holdStill
  dsimp only
  split
  · exact ⟨endStart_does _ c _ rfl rfl, List.prefix_rfl⟩
  · exact ⟨(endStart_does _ c _ rfl rfl).trans (Does.modChan _ c _ (.inl rfl)), List.prefix_rfl⟩

theorem holdStill_does (s : State) (c : Nat) : Does { time := true, chans := fun k => k = c } s (holdStill s c) :=
  (endCue_does s c _ rfl).trans (holdStill_after s c).1

/-- The requests that wait outside RUNNING are SUPERSEDED (R61). -/
theorem holdStill_handed (s : State) (c : Nat) :
    (∀ q, (s.chan c).cue = some q → (⟨q.ticket, .superseded, false, 0, []⟩ : Handed) ∈ (holdStill s c).handed) ∧
      ∀ q, (s.chan c).start = some q → (⟨q.ticket, .superseded, false, 0, []⟩ : Handed) ∈ (holdStill s c).handed := by
  obtain ⟨cue, start⟩ := holdStill_after s c
  exact ⟨fun q hq => cue.handed.subset (endCue_handed _ hq),
    fun q hq => start.subset (endStart_handed _ (by rw [endCue_chan]; exact hq))⟩

theorem doChanHold_ok (q : Ticket) (hb : badChannel s c = false) (hs : (s.chan c).state ≠ .idle) {y : State}
    (hy : (if (s.chan c).state = .running then holdRunning s c else holdStill s c) = y) :
    doChanHold c q s = y.reply q .ok [item4 (y.chan c).dueIndex.toNat, item4s (y.chan c).pos] := by
  subst hy
  unfold doChanHold
  rw [if_neg (by rw [hb]; decide), if_neg hs]

end

/-- A REVOKE of the due index decided by a hold waits after its event, or is written in it (R63, R101). -/
theorem hold_revoke_handed {w : Touched} {s x t : State} {c : Nat} (h : Happens w s x t)
    (ring : x.ring c = { s.ring c with
      revoke := some ((s.chan c).revokeAt (s.chan c).dueIndex)
      transfer := (s.ring c).transfer.map (fun t => t.voidFrom (s.chan c).dueIndex) })
    (hs : (s.chan c).state = .running) : (t.ring c).revoke =
        some ⟨(s.chan c).dueIndex, (s.chan c).clip, (s.chan c).dueTime.getD 0 % 4294967296⟩ ∨
      Output.record (BitVec.ofNat 64 ((s.ring c).recordArea + 32 * (s.ring c).nextSlot))
        ⟨.revoke, .none, false, false, false, (s.chan c).clip, (s.ring c).gap, (s.chan c).dueIndex, 0, 0,
          (s.chan c).dueTime.getD 0 % 4294967296⟩ ∈ outputsSince s t := by
  rw [← Channel.dueLow_dueIndex hs]
  rcases h.late.waiting c _ (congrArg (fun r => r.revoke) ring) with e | o
  · exact .inl (by rw [e, ring]; rfl)
  · refine .inr (drop_mem_of_later h.does.frame.out h.late.out ?_)
    rw [ring] at o
    exact o

/-- Settles O45: from RUNNING the records ahead are revoked (`holdRunning_revokes`), otherwise what waits is SUPERSEDED. -/
theorem chanHoldStopsInPlace : Obligations.ChanHoldStopsInPlace := by
  intro s tag c hoff hc hs idle
  generalize hq : ticketOf s 54 tag = q
  have hb : badChannel (beginTake s) c = false := badChannel_eq_false hc hs
  have act : ∀ {y}, _ = y → doChanHold c q (beginTake s) = _ := fun hy => doChanHold_ok q hb idle hy
  by_cases running : (s.chan c).state = .running
  · obtain ⟨held, kept⟩ := holdRunning_kept (beginTake s) c
    have after := (holdRunning_after (beginTake s) c).handed
    have revokes := holdRunning_revokes (s := beginTake s) (c := c)
    have does := holdRunning_does (beginTake s) c
    have act := act (if_pos running)
    generalize holdRunning (beginTake s) c = y at held kept after revokes does act
    obtain ⟨t, ht, h⟩ := exec_happens hoff (hq ▸ act) (does.trans (Does.reply _ _ _ _))
    have field : ∀ {β : Type} (f : Channel → β), (∀ ch : Channel, f ch.kept = f ch) →
        f (t.chan c) = f (({ s.chan c with course := none } : Channel).stopped s.now) := fun f hf => h.field kept f hf
    have pos : (y.chan c).pos = (s.chan c).pos := congrArg (fun ch => ch.pos) kept
    have due : (y.chan c).dueIndex = (s.chan c).dueIndex := congrArg (fun ch => ch.dueIndex) kept
    refine ⟨t, ht, h.frame, h.state held (by decide), field (·.pos) fun _ => rfl, field (·.dueIndex) fun _ => rfl,
      field (·.speed) fun _ => rfl, field (·.atEdge) fun _ => rfl, fun _ => field (·.base) fun _ => rfl,
      fun _ => ⟨field (·.dueTime) fun _ => rfl, field (·.edge) fun _ => rfl, field (·.course) fun _ => rfl, fun p hp =>
        h.answered (List.mem_append_left _ (after.subset (endCourse_handed _ hp)))⟩, fun h => absurd running h, ?_, ?_⟩
    · rintro low - records open' revoke rfl
      obtain ⟨last, ring⟩ := revokes records
      rw [beginTake_ring, beginTake_chan, revoke] at ring
      refine ⟨?_, hold_revoke_handed h ring running, fun rest free => ?_, fun x hx => ?_⟩
      · rw [(h.late.ended c (by rw [State.reply_chan, held]; decide)).2]; exact last
      · refine revoke_none_of_atRest rest ?_ free
        have : (t.ring c).closing = (y.ring c).closing := congrArg (fun r => r.closing) (h.ends.rings c)
        rw [this, ring]; exact open'
      · exact h.leaves.transfers c _ ((congrArg (fun r => r.transfer) ring).trans (by rw [hx]; rfl))
    · subst hq
      rw [← pos, ← due]
      exact h.answered (handed_reply _ _ _ _)
  · have chan := holdStill_chan (beginTake s) c
    obtain ⟨cue, start⟩ := holdStill_handed (beginTake s) c
    have does := holdStill_does (beginTake s) c
    have act := act (if_neg running)
    generalize holdStill (beginTake s) c = y at chan cue start does act
    obtain ⟨t, ht, h⟩ := exec_happens hoff (hq ▸ act) (does.trans (Does.reply _ _ _ _))
    have field : ∀ {β : Type} (f : Channel → β), (∀ ch : Channel, f ch.kept = f ch) →
        f (t.chan c) = f ((s.chan c).stilled s.now) := fun f hf => h.field (congrArg (fun ch => ch.kept) chan) f hf
    obtain ⟨hcue, hexpiry⟩ := h.cue (c := c) (by rw [State.reply_chan, chan]; exact nofun)
    rw [State.reply_chan, chan] at hcue hexpiry
    refine ⟨t, ht, h.frame, h.state (congrArg (fun ch => ch.state) chan) (by decide), field (·.pos) fun _ => rfl,
      field (·.dueIndex) fun _ => rfl, field (·.speed) fun _ => rfl, field (·.atEdge) fun _ => rfl,
      fun unheld => (field (·.base) fun _ => rfl).trans (if_neg unheld), fun h => absurd h running,
      fun _ => ⟨fun p hp => ⟨field (·.start) fun _ => rfl, h.answered (List.mem_append_left _ (start p hp))⟩,
        fun p hp => ⟨hcue, hexpiry.trans (if_pos (by rw [beginTake_chan, hp]; rfl)),
          h.answered (List.mem_append_left _ (cue p hp))⟩⟩,
      fun _ h => absurd h running, ?_⟩
    have answered := h.answered (handed_reply _ _ _ _)
    rw [chan] at answered
    subst hq
    exact answered

end Sys2Proof.Machine

/-! SUPPORT. The end of a channel's binding: its waiting answers, its list, its view's claim and its clip's count (R19, R27, R50,
R68). -/

namespace Sys2Proof.Machine

/-- A clip after an unbind: a RETIRING clip whose count falls to 0 is freed (R19). -/
def Clip.unbound (c : Clip) : Clip :=
  if c.state = .retiring ∧ c.bindCount ≤ 1 then Clip.initial else { c with bindCount := c.bindCount - 1 }

theorem Clip.unbound_of_live {c : Clip} (h : c.state = .live) : c.unbound = { c with bindCount := c.bindCount - 1 } :=
  if_neg fun hr => by rw [h] at hr; exact nomatch hr.1

theorem Clip.unbound_of_retiring {c : Clip} (h : c.state = .retiring) :
    c.unbound = if c.bindCount ≤ 1 then Clip.initial else { c with bindCount := c.bindCount - 1 } := by
  unfold Clip.unbound
  simp only [h, true_and]

/-- A channel with no cue, start or course waiting. -/
def Channel.quiet (ch : Channel) : Channel :=
  { ch with cue := none, cueExpiry := if ch.cue.isSome then none else ch.cueExpiry, start := none, course := none }

section
variable {w : Touched} (s : State) (c : Nat)

/-! ## One step at a time -/

theorem unbind_does (h : Nat) (hm : w.map = true) (hv : w.volumes = true) (hp : w.pins = true) : Does w s (unbind s h) := by
  unfold unbind lowerBind
  exact Does.ite ((Does.setClip _ _ _ hm).trans (freeClip_does _ _ hm hv hp)) (Does.setClip _ _ _ hm)

theorem unbind_clip (h k : Nat) : (unbind s h).clip k = if k = h then (s.clip h).unbound else s.clip k := by
  have lowered : ∀ i, (lowerBind s h).clip i =
      if i = h then { s.clip h with bindCount := (s.clip h).bindCount - 1 } else s.clip i := fun i => State.clip_setClip s h i _
  have low : (s.clip h).bindCount - 1 = 0 ↔ (s.clip h).bindCount ≤ 1 := Nat.sub_eq_zero_iff_le
  unfold unbind Clip.unbound
  simp only [lowered, if_true, low]
  split
  · rw [freeClip_clip, lowered]
    split <;> rfl
  · exact lowered k

/-- An unbind writes no channel, ring or view. -/
theorem unbind_beside (h : Nat) : (unbind s h).chans = s.chans ∧ (unbind s h).rings = s.rings ∧ (unbind s h).views = s.views := by
  unfold unbind
  dsimp only
  split
  · exact ⟨rfl, rfl, rfl⟩
  · exact ⟨rfl, rfl, rfl⟩

theorem releaseViewOpt_does (v : Option Nat) (h : w.views = true) : Does w s (releaseViewOpt s v) := by
  cases v with
  | none => exact Does.refl s
  | some v => exact Does.setView _ _ _ h

/-- A view's release writes no channel, ring or clip. -/
theorem releaseViewOpt_beside (v : Option Nat) : (releaseViewOpt s v).chans = s.chans ∧ (releaseViewOpt s v).rings = s.rings ∧
    (releaseViewOpt s v).map = s.map := by
  cases v <;> exact ⟨rfl, rfl, rfl⟩

theorem releaseViewOpt_useCount (v : Option Nat) (i : Nat) : ((releaseViewOpt s v).view i).useCount =
    if v = some i then (s.view i).useCount - 1 else (s.view i).useCount := by
  cases v with
  | none => rfl
  | some v =>
    unfold releaseViewOpt releaseView
    rw [State.view_setView]
    by_cases e : i = v
    · subst e; rw [if_pos rfl, if_pos rfl]
    · rw [if_neg e, if_neg fun h => e (Option.some.inj h).symm]

theorem releaseList_list : ((releaseList s c).chan c).list = [] := by
  have still := (releaseEntries_acts (S := fun _ => False) (setList s c []) (s.chan c).list).chans c id
  rw [show (setList s c []).chan c = _ from State.chan_modChan_self s c _] at still
  exact List.map_eq_nil_iff.1 (congrArg Channel.list still)

theorem releaseList_stays (i : Nat) : Stays s (releaseList s c) i :=
  (modChan_stays s c _ i (by rfl)).trans ((releaseEntries_acts (S := fun _ => False) _ _).stays id)

theorem endCue_ring (r : Result) (i : Nat) : (endCue s c r).ring i = s.ring i := by
  unfold endCue
  split <;> rfl

theorem endStart_ring (r : Result) (i : Nat) : (endStart s c r).ring i = s.ring i := by
  unfold endStart
  split <;> rfl

theorem endWaiting_chan (r : Result) : (endWaiting s c r).chan c = (s.chan c).quiet := by
  unfold endWaiting
  rw [endCourse_chan, endStart_chan, endCue_chan]
  rfl

theorem endWaiting_ring (r : Result) (i : Nat) : (endWaiting s c r).ring i = s.ring i := by
  unfold endWaiting
  rw [endCourse_ring, endStart_ring, endCue_ring]

/-- Every request that waits on a channel is answered. -/
structure Told (r : Result) (ch : Channel) (t : State) : Prop where
  cue : ∀ q, ch.cue = some q → (⟨q.ticket, r, false, 0, []⟩ : Handed) ∈ t.handed
  start : ∀ q, ch.start = some q → (⟨q.ticket, r, false, 0, []⟩ : Handed) ∈ t.handed
  course : ∀ q, ch.course = some q → (⟨q.ticket, r, false, 0, []⟩ : Handed) ∈ t.handed

theorem endWaiting_told (r : Result) : Told r (s.chan c) (endWaiting s c r) := by
  have start := (endStart_does (w := { time := true, chans := (· = c) }) (endCue s c r) c r rfl rfl).handed
  have course := (endCourse_does (w := { chans := (· = c) }) (endStart (endCue s c r) c r) c r rfl).handed
  exact ⟨fun q hq => course.subset (start.subset (endCue_handed r hq)),
    fun q hq => course.subset (endStart_handed r (by rw [endCue_chan]; exact hq)),
    fun q hq => endCourse_handed r (by rw [endStart_chan, endCue_chan]; exact hq)⟩

end

theorem Does.setRing {w : Touched} (s : State) (c : Nat) (r : Ring) (h : w.rings c) : Does w s (s.setRing c r) := by
  refine ⟨⟨fun _ => rfl, fun _ => rfl, fun _ => rfl, fun _ => rfl, fun _ => rfl, fun _ => SettingsStand.ofPort rfl,
    fun _ => FlagsAdded.refl _ _, fun _ => rfl, fun i _ => ChanStands.refl s i, fun i hi => ?_, fun m _ => LinkStands.refl s m, rfl,
    List.prefix_rfl⟩, rfl, List.prefix_rfl⟩
  have apart : i ≠ c := fun e => hi (by rw [e]; exact h)
  rw [State.ring_setRing, if_neg apart]

end Sys2Proof.Machine

/-! SUPPORT. CHAN_CLOSE (R68, R103). -/

namespace Sys2Proof.Machine

/-- The channel closed for a request that is yet to be answered, or has been (R68). -/
def Channel.shut (ticket : Option Ticket) (ch : Channel) : Channel :=
  { ch.unbound with state := .free, speed := 0, closeTicket := ticket }

/-- The state of a channel that has given up its binding, its waiting answers and its list, in the course of its close (R68). -/
def closeReleased (s : State) (c : Nat) : State := closeBinding (releaseList (endWaiting s c .aborted) c) c

/-- What the end of a binding leaves: the channel by `ch`, its list empty, the clip counted down, the view released. -/
structure Unbinds (s y : State) (c : Nat) (ch : Channel) : Prop where
  does : Does (Touched.binding (fun k => k = c) (fun k => k = c)) s y
  chan : (y.chan c).bare = ch.bare
  list : (y.chan c).list = []
  clip : ∀ k, y.clip k = if k = (s.chan c).clip ∧ k ≠ 0 then (s.clip k).unbound else s.clip k
  view : ∀ v, (s.chan c).view = some v → (s.chan c).clip ≠ 0 → (y.view v).useCount = (s.view v).useCount - 1
  told : Told .aborted (s.chan c) y

section
variable {s y : State} {c : Nat}

theorem Told.mono {r : Result} {ch : Channel} {t u : State} (h : Told r ch t) (hp : t.handed <+: u.handed) : Told r ch u :=
  ⟨fun q hq => hp.subset (h.cue q hq), fun q hq => hp.subset (h.start q hq), fun q hq => hp.subset (h.course q hq)⟩

theorem closeBinding_does {w : Touched} (s : State) (c : Nat)
    (h : w.map = true ∧ w.volumes = true ∧ w.pins = true ∧ w.views = true) :
    Does w s (closeBinding s c) := by
  obtain ⟨hm, hv, hp, hw⟩ := h
  unfold closeBinding
  exact Does.ite (Does.refl s) ((releaseViewOpt_does s _ hw).trans (unbind_does _ _ hm hv hp))

theorem closeBinding_beside (s : State) (c : Nat) : (closeBinding s c).chans = s.chans ∧ (closeBinding s c).rings = s.rings := by
  unfold closeBinding
  dsimp only
  split
  · exact ⟨rfl, rfl⟩
  · obtain ⟨chans, rings, -⟩ := unbind_beside (releaseViewOpt s (s.chan c).view) (s.chan c).clip
    obtain ⟨chans', rings', -⟩ := releaseViewOpt_beside s (s.chan c).view
    exact ⟨chans.trans chans', rings.trans rings'⟩

theorem closeBinding_clip (s : State) (c k : Nat) : (closeBinding s c).clip k =
    if k = (s.chan c).clip ∧ k ≠ 0 then (s.clip k).unbound else s.clip k := by
  unfold closeBinding
  dsimp only
  split
  · rename_i zero
    rw [if_neg fun h => h.2 (h.1.trans zero)]
  · rename_i bound
    have clip : ∀ i, (releaseViewOpt s (s.chan c).view).clip i = s.clip i := fun i => by
      unfold State.clip; rw [(releaseViewOpt_beside s _).2.2]
    rw [unbind_clip, clip, clip]
    by_cases e : k = (s.chan c).clip
    · subst e; rw [if_pos rfl, if_pos ⟨rfl, bound⟩]
    · rw [if_neg e, if_neg fun h => e h.1]

theorem closeBinding_view {v : Nat} (hv : (s.chan c).view = some v) (bound : (s.chan c).clip ≠ 0) :
    ((closeBinding s c).view v).useCount = (s.view v).useCount - 1 := by
  have views := (unbind_beside (releaseViewOpt s (s.chan c).view) (s.chan c).clip).2.2
  have view : ((unbind (releaseViewOpt s (s.chan c).view) (s.chan c).clip).view v).useCount = (s.view v).useCount - 1 := by
    unfold State.view
    rw [views]
    exact (releaseViewOpt_useCount s _ v).trans (if_pos hv)
  unfold closeBinding
  rw [if_neg bound]
  exact view

theorem closeReleased_unbinds (s : State) (c : Nat) : Unbinds s (closeReleased s c) c (s.chan c).quiet := by
  have waiting := endWaiting_does (w := Touched.binding (fun k => k = c) (fun k => k = c)) s c .aborted rfl rfl
  have waits := endWaiting_does (w := { time := true, chans := fun k => k = c }) s c .aborted rfl rfl
  have follows := releaseList_follows (endWaiting s c .aborted) c
  have list := releaseList_stays (endWaiting s c .aborted) c c
  have empty := releaseList_list (endWaiting s c .aborted) c
  have binding := closeBinding_does (w := Touched.binding (fun k => k = c) (fun k => k = c))
    (releaseList (endWaiting s c .aborted) c) c ⟨rfl, rfl, rfl, rfl⟩
  have chan : (closeReleased s c).chan c = (releaseList (endWaiting s c .aborted) c).chan c := by
    unfold State.chan closeReleased; rw [(closeBinding_beside _ c).1]
  have clips : ∀ k, (releaseList (endWaiting s c .aborted) c).clip k = s.clip k := fun k => by
    unfold State.clip; rw [follows.map, waits.frame.map rfl]
  have views : ∀ v, (releaseList (endWaiting s c .aborted) c).view v = s.view v := fun v => by
    unfold State.view; rw [follows.views, waits.frame.views rfl]
  have clip : ((releaseList (endWaiting s c .aborted) c).chan c).clip = (s.chan c).clip := by
    rw [list.field (·.clip), endWaiting_chan]; rfl
  have view : ((releaseList (endWaiting s c .aborted) c).chan c).view = (s.chan c).view := by
    rw [list.field (·.view), endWaiting_chan]; rfl
  refine ⟨(waiting.trans follows.does).trans binding, ?_, chan ▸ empty, fun k => ?_, fun v hv bound => ?_, ?_⟩
  · rw [chan, list.bare, endWaiting_chan]
  · exact (closeBinding_clip _ c k).trans (by rw [clip, clips])
  · exact (closeBinding_view (view.trans hv) (clip ▸ bound)).trans (by rw [views])
  · exact (endWaiting_told s c .aborted).mono (list.handed.trans binding.handed)

theorem closeReleased_ring (s : State) (c : Nat) : (closeReleased s c).ring c = s.ring c := by
  have rings : (closeReleased s c).ring c = (releaseList (endWaiting s c .aborted) c).ring c := by
    unfold State.ring closeReleased; rw [(closeBinding_beside _ c).2]
  rw [rings, (releaseList_stays _ c c).ring, endWaiting_ring]

/-- The channel itself is shut. -/
theorem Unbinds.shut {ch : Channel} (h : Unbinds s y c ch) (q : Ticket) :
    Unbinds s (y.modChan c (Channel.shut (some q))) c (ch.shut (some q)) := by
  have chan := State.chan_modChan_self y c (Channel.shut (some q))
  refine ⟨h.does.trans (Does.modChan _ _ _ (.inl rfl)), ?_, (congrArg Channel.list chan).trans h.list, h.clip, h.view,
    h.told.mono List.prefix_rfl⟩
  rw [chan]
  exact Channel.bare_congr (Channel.shut (some q)) h.chan

/-- The Delivery Engine waits for a transfer to end before it drops the ring (R68). -/
theorem Unbinds.ringCloses {ch : Channel} (h : Unbinds s y c ch) (f : Ring → Ring) : Unbinds s (y.modRing c f) c ch :=
  ⟨h.does.trans (Does.setRing _ _ _ rfl), h.chan, h.list, h.clip, h.view, h.told.mono List.prefix_rfl⟩

/-- The ring dropped, the close is answered (R68, R103). -/
theorem Unbinds.ringDropped {ch : Channel} (h : Unbinds s y c ch) :
    Unbinds s (dropRing y c) c { ch with closeTicket := none } := by
  have closed : ∀ (o : Option Ticket) (z : State), Does (Touched.binding (fun k => k = c) (fun k => k = c)) z (z.refuseOpt o .ok) ∧
      (z.refuseOpt o .ok).chan c = z.chan c ∧ (z.refuseOpt o .ok).map = z.map ∧ (z.refuseOpt o .ok).views = z.views := fun o z => by
    cases o with
    | none => exact ⟨Does.refl z, rfl, rfl, rfl⟩
    | some q => exact ⟨Does.reply _ _ _ _, rfl, rfl, rfl⟩
  obtain ⟨does, chan, map, views⟩ := closed (y.chan c).closeTicket (y.setRing c Ring.initial)
  have all : Does (Touched.binding (fun k => k = c) (fun k => k = c)) y (dropRing y c) :=
    ((Does.setRing y c Ring.initial rfl).trans does).trans (Does.modChan _ c (fun ch => { ch with closeTicket := none }) (.inl rfl))
  have chan : (dropRing y c).chan c = { y.chan c with closeTicket := none } :=
    (State.chan_modChan_self _ c _).trans (by rw [chan]; rfl)
  refine ⟨h.does.trans all, ?_, (congrArg Channel.list chan).trans h.list, fun k => ?_, fun v hv bound => ?_,
    h.told.mono all.handed⟩
  · rw [chan]
    exact Channel.bare_congr (fun ch => { ch with closeTicket := none }) h.chan
  · exact Eq.trans (congrArg (fun m : FrameMap => tget Clip.initial m.clips k) map) (h.clip k)
  · exact Eq.trans (congrArg (fun m : Tab View => (tget View.initial m v).useCount) views) (h.view v hv bound)

theorem dropRing_ring (s : State) (c : Nat) : (dropRing s c).ring c = Ring.initial := by
  have ring : ∀ (o : Option Ticket) (z : State), (z.refuseOpt o .ok).ring c = z.ring c := fun o z => by cases o <;> rfl
  exact (ring _ _).trans ((State.ring_setRing s c c _).trans (if_pos rfl))

theorem dropRing_handed {q : Ticket} (h : (s.chan c).closeTicket = some q) :
    (⟨q, .ok, false, 0, []⟩ : Handed) ∈ (dropRing s c).handed := by
  unfold dropRing
  rw [h]
  exact handed_reply _ _ _ _

end

theorem closeChannel_eq (s : State) (c : Nat) (q : Ticket) : closeChannel s c q =
    if (s.ring c).transfer.isSome then
      ((closeReleased s c).modChan c (Channel.shut (some q))).modRing c (fun r => { r with closing := true, revoke := none })
    else dropRing ((closeReleased s c).modChan c (Channel.shut (some q))) c := by
  show (if (((closeReleased s c).modChan c (Channel.shut (some q))).ring c).transfer.isSome then _ else _) = _
  rw [show ((closeReleased s c).modChan c (Channel.shut (some q))).ring c = s.ring c from closeReleased_ring s c]
  rfl

/-- The channel a close leaves, for a close that waits for a transfer or one that does not. -/
theorem closeChannel_unbinds (s : State) (c : Nat) (q : Ticket) : Unbinds s (closeChannel s c q) c
    ((s.chan c).quiet.shut (if (s.ring c).transfer.isSome then some q else none)) := by
  have shut := (closeReleased_unbinds s c).shut q
  rw [closeChannel_eq]
  split
  · exact shut.ringCloses _
  · exact shut.ringDropped

theorem closeChannel_idle {s : State} {c : Nat} (q : Ticket) (h : (s.ring c).transfer = none) :
    ((closeChannel s c q).ring c) = Ring.initial ∧ (⟨q, .ok, false, 0, []⟩ : Handed) ∈ (closeChannel s c q).handed := by
  rw [closeChannel_eq, if_neg (by rw [h]; decide)]
  exact ⟨dropRing_ring _ c, dropRing_handed (congrArg (·.closeTicket) (State.chan_modChan_self _ c _))⟩

theorem closeChannel_closing {s : State} {c : Nat} (q : Ticket) (h : (s.ring c).transfer.isSome = true) :
    ((closeChannel s c q).ring c).closing = true := by
  rw [closeChannel_eq, if_pos h, State.ring_modRing, if_pos rfl]

/-- Settles O47: the close unbinds the channel (`closeChannel_unbinds`), and the rest of its event leaves what it put. -/
theorem chanCloseFreesTheChannel : Obligations.ChanCloseFreesTheChannel := by
  intro s tag c hoff hc hs
  have hb : badChannel (beginTake s) c = false := badChannel_eq_false hc hs
  have act : doChanClose c (ticketOf s 57 tag) (beginTake s) = closeChannel (beginTake s) c (ticketOf s 57 tag) :=
    if_neg (by rw [hb]; decide)
  have closed := closeChannel_unbinds (beginTake s) c (ticketOf s 57 tag)
  have idle := closeChannel_idle (s := beginTake s) (c := c) (ticketOf s 57 tag)
  have busy := closeChannel_closing (s := beginTake s) (c := c) (ticketOf s 57 tag)
  generalize closeChannel (beginTake s) c (ticketOf s 57 tag) = x at act closed idle busy
  obtain ⟨t, ht, h⟩ := exec_happens hoff act closed.does
  have field : ∀ {β : Type} (f : Channel → β), (∀ ch : Channel, f ch.kept = f ch) → f (t.chan c) =
      f ((s.chan c).quiet.shut (if (s.ring c).transfer.isSome then some (ticketOf s 57 tag) else none)) :=
    fun f hf => h.field (Channel.kept_of_bare closed.chan) f hf
  have free : (x.chan c).state = .free := congrArg (fun ch => ch.state) closed.chan
  have clip : ∀ k, t.clip k = if k = (s.chan c).clip ∧ k ≠ 0 then (s.clip k).unbound else s.clip k := fun k =>
    (h.ends.clip k).trans (closed.clip k)
  have bound : (s.chan c).clip ≠ 0 → t.clip (s.chan c).clip = (s.clip (s.chan c).clip).unbound := fun hb =>
    (clip _).trans (if_pos ⟨rfl, hb⟩)
  refine ⟨t, ht, h.frame, h.state free (by decide), field (·.clip) fun _ => rfl, field (·.view) fun _ => rfl,
    field (·.pos) fun _ => rfl, field (·.speed) fun _ => rfl, field (·.dueTime) fun _ => rfl, field (·.start) fun _ => rfl,
    field (·.course) fun _ => rfl, h.leaves.lists c (by rw [free]; rfl) closed.list,
    fun q hq => h.answered (closed.told.cue q hq), fun q hq => h.answered (closed.told.start q hq),
    fun q hq => h.answered (closed.told.course q hq), fun hb live => (bound hb).trans (Clip.unbound_of_live live),
    fun hb retiring => (bound hb).trans (Clip.unbound_of_retiring retiring), fun k hk => (clip k).trans (if_neg fun e => hk e.1),
    fun v hv hb => (congrArg View.useCount (h.ends.view v)).trans (closed.view v hv hb), fun none' => ?_, fun some' => ?_⟩
  · obtain ⟨ring, ok⟩ := idle none'
    refine ⟨(h.ends.rings c).trans (by rw [ring]; rfl), (field (·.closeTicket) fun _ => rfl).trans ?_, h.answered ok⟩
    exact if_neg (by rw [none']; decide)
  · have closing : (t.ring c).closing = (x.ring c).closing := congrArg (fun r => r.closing) (h.ends.rings c)
    exact ⟨closing.trans (busy some'), (field (·.closeTicket) fun _ => rfl).trans (if_pos some')⟩

end Sys2Proof.Machine

/-! SUPPORT. CHAN_BIND (R49, R50, R19, R27). -/

namespace Sys2Proof.Machine

/-- The channel by the binding of a request, to a clip of a length and a rate (R50). -/
def Channel.boundBy (a : ChanBindArgs) (length rate : Nat) (ch : Channel) : Channel :=
  ch.rebound a (chosenLast a.follow a.lastFrame length) rate

section
variable {s : State} {a : ChanBindArgs}

/-! ## The counts -/

/-- A bind raises the count of its clip and unbinds the old one, unless they are one clip (R19). -/
theorem moveBind_clip (s : State) (old h k : Nat) : (moveBind s old h).clip k =
    if old = h then s.clip k
    else if k = h then { s.clip h with bindCount := (s.clip h).bindCount + 1 }
    else if k = old ∧ old ≠ 0 then (s.clip old).unbound
    else s.clip k := by
  have raised : ∀ i, (raiseBind s h).clip i = if i = h then { s.clip h with bindCount := (s.clip h).bindCount + 1 } else s.clip i :=
    fun i => State.clip_setClip s h i _
  unfold moveBind
  by_cases same : old = h
  · rw [if_pos same, if_pos same]
  rw [if_neg same, if_neg same]
  by_cases zero : old = 0
  · rw [if_pos zero, raised, if_neg fun e : k = old ∧ old ≠ 0 => e.2 zero]
  rw [if_neg zero, unbind_clip, raised, raised, if_neg same]
  by_cases new : k = h
  · subst new; rw [if_neg (Ne.symm same), if_pos rfl, if_pos rfl]
  rw [if_neg new, if_neg new]
  by_cases here : k = old
  · rw [if_pos here, if_pos ⟨here, zero⟩]
  · rw [if_neg here, if_neg fun e => here e.1]

theorem moveBind_does {w : Touched} (s : State) (old h : Nat) (hm : w.map = true) (hv : w.volumes = true) (hp : w.pins = true) :
    Does w s (moveBind s old h) :=
  (Does.refl s).ite (Does.ite (Does.setClip _ _ _ hm) ((Does.setClip _ _ _ hm).trans (unbind_does _ _ hm hv hp)))

theorem moveBind_beside (s : State) (old h : Nat) : (moveBind s old h).chans = s.chans ∧ (moveBind s old h).views = s.views := by
  unfold moveBind
  split
  · exact ⟨rfl, rfl⟩
  · split
    · exact ⟨rfl, rfl⟩
    · obtain ⟨chans, -, views⟩ := unbind_beside (raiseBind s h) old
      exact ⟨chans, views⟩

/-- A view claimed and then another released: the claim stands unless they are one view (R27). -/
theorem useCount_claim_release (s : State) (v i : Nat) (o : Option Nat) :
    (if o = some i then ((claimView s v).view i).useCount - 1 else ((claimView s v).view i).useCount) =
      if i = v then (s.view v).useCount + (if o = some v then 0 else 1)
      else if o = some i then (s.view i).useCount - 1 else (s.view i).useCount := by
  unfold claimView
  rw [State.view_setView]
  by_cases e : i = v
  · subst e
    simp only [if_true]
    split <;> omega
  · rw [if_neg e, if_neg e]

/-! ## The bind -/

/-- The counts of a bind moved. -/
def bindCounted (s : State) (a : ChanBindArgs) : State :=
  claimView (moveBind s (s.chan a.channel).clip a.clip) a.view

/-- The requests that wait on a channel to be bound answered. -/
def bindAnswered (s : State) (a : ChanBindArgs) : State :=
  endStart (endCue (bindCounted s a) a.channel .superseded) a.channel .superseded

/-- The old binding given up. -/
def bindReleased (s : State) (a : ChanBindArgs) : State :=
  releaseViewOpt (releaseList (bindAnswered s a) a.channel) (s.chan a.channel).view

theorem bindChannel_eq (s : State) (a : ChanBindArgs) : bindChannel s a =
    (bindReleased s a).modChan a.channel (Channel.boundBy a (s.clip a.clip).length (s.clip a.clip).rate) := rfl

/-- What a bind leaves of its channel, the clips, the views and the answers. -/
structure Binds (s y : State) (a : ChanBindArgs) : Prop where
  does : Does (Touched.binding (fun c => c = a.channel) (fun _ => False)) s y
  chan : (y.chan a.channel).bare =
    (({ (s.chan a.channel).quiet with course := (s.chan a.channel).course } : Channel).boundBy a (s.clip a.clip).length
      (s.clip a.clip).rate).bare
  list : (y.chan a.channel).list = []
  clip : ∀ k, y.clip k = (moveBind s (s.chan a.channel).clip a.clip).clip k
  view : ∀ v, (y.view v).useCount = if v = a.view then (s.view v).useCount + (if (s.chan a.channel).view = some v then 0 else 1)
    else if (s.chan a.channel).view = some v then (s.view v).useCount - 1 else (s.view v).useCount
  cue : ∀ q, (s.chan a.channel).cue = some q → (⟨q.ticket, .superseded, false, 0, []⟩ : Handed) ∈ y.handed
  start : ∀ q, (s.chan a.channel).start = some q → (⟨q.ticket, .superseded, false, 0, []⟩ : Handed) ∈ y.handed

theorem bindCounted_chan (s : State) (a : ChanBindArgs) (c : Nat) : (bindCounted s a).chan c = s.chan c := by
  show tget _ (moveBind s _ a.clip).chans c = _
  rw [(moveBind_beside s _ a.clip).1]
  rfl

theorem bindCounted_useCount (s : State) (a : ChanBindArgs) (v : Nat) :
    ((bindCounted s a).view v).useCount = ((claimView s a.view).view v).useCount := by
  have view : ∀ i, (moveBind s (s.chan a.channel).clip a.clip).view i = s.view i := fun i => by
    unfold State.view; rw [(moveBind_beside s _ a.clip).2]
  unfold bindCounted claimView
  rw [State.view_setView, State.view_setView, view, view]

theorem bindAnswered_after (s : State) (a : ChanBindArgs) :
    Does { time := true, chans := fun c => c = a.channel } (bindCounted s a) (bindAnswered s a) :=
  (endCue_does _ _ _ rfl).trans (endStart_does _ _ _ rfl rfl)

theorem bindChannel_binds (s : State) (a : ChanBindArgs) : Binds s (bindChannel s a) a := by
  have counted : Does (Touched.binding (fun c => c = a.channel) (fun _ => False)) s (bindCounted s a) :=
    (moveBind_does s _ _ rfl rfl rfl).trans (Does.setView _ _ _ rfl)
  have answered := bindAnswered_after s a
  have list := releaseList_stays (bindAnswered s a) a.channel a.channel
  have follows := releaseList_follows (bindAnswered s a) a.channel
  have beside := releaseViewOpt_beside (releaseList (bindAnswered s a) a.channel) (s.chan a.channel).view
  have release := releaseViewOpt_does (w := Touched.binding (fun c => c = a.channel) (fun _ => False))
    (releaseList (bindAnswered s a) a.channel) (s.chan a.channel).view rfl
  obtain ⟨chans, -, map⟩ := beside
  have released : Does (Touched.binding (fun c => c = a.channel) (fun _ => False)) (bindAnswered s a) (bindReleased s a) :=
    follows.does.trans release
  have chan : (bindReleased s a).chan a.channel = (releaseList (bindAnswered s a) a.channel).chan a.channel := by
    unfold State.chan bindReleased; rw [chans]
  have quiet : (bindAnswered s a).chan a.channel =
      { (s.chan a.channel).quiet with course := (s.chan a.channel).course } := by
    unfold bindAnswered
    rw [endStart_chan, endCue_chan, bindCounted_chan]
    rfl
  have write := State.chan_modChan_self (bindReleased s a) a.channel
    (Channel.boundBy a (s.clip a.clip).length (s.clip a.clip).rate)
  rw [bindChannel_eq]
  have told : (bindAnswered s a).handed <+:
      ((bindReleased s a).modChan a.channel (Channel.boundBy a (s.clip a.clip).length (s.clip a.clip).rate)).handed :=
    released.handed
  refine ⟨((counted.trans (answered.mono)).trans released).trans (Does.modChan _ _ _ (.inl rfl)), ?_, ?_, fun k => ?_, fun v => ?_,
    fun q hq => told.subset ?_, fun q hq => told.subset ?_⟩
  · rw [write, ← quiet]
    exact Channel.bare_congr (Channel.boundBy a _ _) (chan ▸ list.bare)
  · rw [write]
    exact (congrArg Channel.list chan).trans (releaseList_list _ _)
  · show tget _ (bindReleased s a).map.clips k = _
    unfold bindReleased
    rw [map, follows.map, answered.frame.map rfl]
    rfl
  · have claimed : ((releaseList (bindAnswered s a) a.channel).view v).useCount = ((claimView s a.view).view v).useCount := by
      rw [← bindCounted_useCount]
      unfold State.view
      rw [follows.views, answered.frame.views rfl]
    refine (releaseViewOpt_useCount _ _ v).trans ?_
    rw [claimed, useCount_claim_release]
    split
    · rename_i e; rw [e]
    · rfl
  · exact (endStart_does (w := { time := true, chans := (· = a.channel) }) _ _ _ rfl rfl).handed.subset
      (endCue_handed _ (by rw [bindCounted_chan]; exact hq))
  · exact endStart_handed _ (by rw [endCue_chan, bindCounted_chan]; exact hq)

theorem doChanBind_ok (q : Ticket) (hb : badChannel s a.channel = false) (still : (s.chan a.channel).state ≠ .running)
    (rate : a.rateOverride ≤ 7 ∨ a.rateOverride = 255) (clip : bindFault s a.clip = none) (view : viewDefined s a.view = true)
    (bounds : boundsFault s a.follow a.inPoint a.lastFrame (s.clip a.clip).length 8 9 = none) : doChanBind a q s =
      (bindChannel s a).reply q .ok (bindItems (s.clip a.clip) ((bindChannel s a).chan a.channel)) := by
  unfold doChanBind
  dsimp only
  rw [if_neg (by rw [hb]; decide), if_neg still, if_neg (by omega), clip]
  dsimp only
  rw [if_neg (by rw [view]; decide), bounds]

theorem bindFault_eq_none {h : Nat} (h1 : 1 ≤ h) (h2 : h ≤ 4095) (live : (s.clip h).state = .live) : bindFault s h = none := by
  have good : badClip s h = false := badClip_eq_false.2 ⟨h1, h2, by rw [live]; decide⟩
  unfold bindFault
  rw [if_neg (by rw [good]; decide), if_neg (by simp [live])]

/-- The record of a bind, as it stands through the event. -/
theorem Channel.boundBy_kept (ch : Channel) (a : ChanBindArgs) (length rate : Nat) :
    (({ ch.quiet with course := ch.course } : Channel).boundBy a length rate).kept = ({ ch with
        clip := a.clip, view := some a.view, inPoint := a.inPoint, lastFrame := if a.follow then length - 1 else a.lastFrame,
        loop := a.loop, follow := a.follow, alignDefault := a.alignDefault,
        rateOverride := if a.rateOverride = 255 then none else some a.rateOverride,
        period := ratePeriod (if a.rateOverride = 255 then rate else a.rateOverride),
        pos := 16 * (a.inPoint : Int), phase := .sustain, remaining := 0, dueTime := none, base := none, start := none,
        missing := false, edge := false, atEdge := false } : Channel).kept := by
  have period : periodOf (overrideItem a.rateOverride) rate =
      ratePeriod (if a.rateOverride = 255 then rate else a.rateOverride) := by
    unfold periodOf overrideItem
    split <;> rfl
  unfold Channel.boundBy Channel.rebound
  rw [period]
  rfl

end

/-- Settles O40: the bind leaves the channel, the counts and the answers of `bindChannel_binds`, which the event keeps. -/
theorem chanBindSetsTheBinding : Obligations.ChanBindSetsTheBinding := by
  intro s tag a hoff hc hs still rate h1 h2 live view inside fits
  have act := doChanBind_ok (s := beginTake s) (ticketOf s 49 tag) (badChannel_eq_false hc hs) still rate
    (bindFault_eq_none h1 h2 live) view (boundsFault_eq_none inside fits 8 9)
  have binds := bindChannel_binds (beginTake s) a
  generalize bindChannel (beginTake s) a = y at act binds
  obtain ⟨t, ht, h⟩ := exec_happens hoff act (binds.does.trans (Does.reply _ _ _ _))
  have kept := Channel.kept_of_bare binds.chan
  have idle : (y.chan a.channel).state = .idle := congrArg (fun ch => ch.state) binds.chan
  have clip : ∀ k, t.clip k = (moveBind (beginTake s) (s.chan a.channel).clip a.clip).clip k := fun k =>
    (h.ends.clip k).trans (binds.clip k)
  have useCount : ∀ v, (t.view v).useCount = _ := fun v => (congrArg View.useCount (h.ends.view v)).trans (binds.view v)
  refine ⟨t, ht, h.frame, h.state idle (by decide), h.leaves.lists _ (by rw [State.reply_chan, idle]; rfl) binds.list,
    ((h.ends.chans _).trans kept).trans (Channel.boundBy_kept _ _ _ _), ?_,
    fun q hq => h.answered (List.mem_append_left _ (binds.cue q hq)),
    fun q hq => h.answered (List.mem_append_left _ (binds.start q hq)),
    ?_, fun k old bound other => ?_, (useCount a.view).trans (if_pos rfl), fun v hv other => ?_⟩
  · have last : (t.chan a.channel).lastFrame = (y.chan a.channel).lastFrame :=
      congrArg (fun ch => ch.lastFrame) (h.ends.chans a.channel)
    have period : (t.chan a.channel).period = (y.chan a.channel).period :=
      congrArg (fun ch => ch.period) (h.ends.chans a.channel)
    rw [last, period]
    exact h.answered (handed_reply _ (ticketOf s 49 tag) _ _)
  · rw [clip, moveBind_clip]
    split
    · rfl
    · rw [if_pos rfl]; rfl
  · have gone : t.clip k = (s.clip k).unbound := by
      subst old
      rw [clip, moveBind_clip, if_neg other, if_neg other, if_pos ⟨rfl, bound⟩]
      rfl
    exact ⟨fun live => gone.trans (Clip.unbound_of_live live), fun retiring => gone.trans (Clip.unbound_of_retiring retiring)⟩
  · exact (useCount v).trans ((if_neg other).trans (if_pos hv))

end Sys2Proof.Machine

/-! SUPPORT. `StepsKeepListsAndSlots` fails on a ring table that is not in canonical form, which its premises allow: `SlotsHeld` reads
the first ring listed under a number, and SERVICE_CLEAR drops a ring without a transfer from the table, which lays open one listed
twice (R94, R104). -/

namespace Sys2Proof.Machine

/-- A ring of 65 slots with a transfer in flight: more slots than a ring can have (R93). -/
def hiddenRing : Ring :=
  { Ring.initial with
    slotCount := 65
    transfer := some ⟨0, 0, ⟨.frame, .none, false, false, false, 0, 0, 0, 0, 0, 0⟩, false⟩ }

/-- The part after reset with its rings enabled and a SERVICE_CLEAR in hand; channel 0 is listed twice in the ring table, first with
no ring, then with the hidden one. -/
def shadowedRings : State :=
  { State.reset with
    port := { Port.initial with state := .enabled, ansSize := 64, hand := .held (.request 0 .serviceClear) }
    rings := [(0, Ring.initial), (0, hiddenRing)] }

/-- The same with the SERVICE_CLEAR's row waiting. -/
def shadowedQueue : State := { shadowedRings with pending := [.serviceClear 0] }

theorem shadowedQueue_ring (c : Nat) : shadowedQueue.ring c = Ring.initial := by
  simp only [State.ring, shadowedQueue, shadowedRings, tget]
  split <;> rfl

theorem shadowedQueue_slots : SlotsHeld shadowedQueue := fun c => by rw [shadowedQueue_ring]; decide

theorem shadowedQueue_lists : ListsHeld shadowedQueue := fun _ => Nat.zero_le _

/-- What SERVICE_CLEAR does at every block of that state. -/
def shadowedCleared : State :=
  doServiceClear (ticketOf shadowedRings Request.serviceClear.kind 0) (beginTake shadowedRings)

theorem shadowedQueue_step :
    step shadowedQueue = .next (endEvent (takeBase shadowedRings .serviceClear) shadowedCleared) :=
  exec_offered (r := .serviceClear) ⟨by decide, by decide⟩

/-- SERVICE_CLEAR drops the first ring of channel 0, and the hidden one is read from then on. -/
theorem shadowedCleared_ring : (shadowedCleared.ring 0).slotCount = 65 := by decide +kernel

/-- An event's end leaves every slot count. -/
theorem Ends.slotCount {s t : State} (e : Ends s t) (c : Nat) : (t.ring c).slotCount = (s.ring c).slotCount :=
  show (t.ring c).kept.slotCount = (s.ring c).kept.slotCount by rw [e.rings c]

/-- Refutes O5: a ring table that lists channel 0 twice meets the premise by its first ring, and SERVICE_CLEAR leaves the second, of
65 slots (`shadowedQueue`). -/
theorem not_stepsKeepListsAndSlots : ¬ Obligations.StepsKeepListsAndSlots := by
  intro keeps
  obtain ⟨-, slots⟩ := keeps _ _ shadowedQueue_lists shadowedQueue_slots shadowedQueue_step
  have bound := (slots 0).2
  rw [(endEvent_ends _ _).slotCount 0, shadowedCleared_ring] at bound
  exact absurd bound (by decide)

end Sys2Proof.Machine

/-! SUPPORT. The period after a period under a course, case by case (R74 to R77), and the place of a channel: its range, its position
and whether it stands at the live edge (R47, R70), for one channel record at a time. -/

namespace Sys2Proof.Machine

/-! ## The next period -/

section
variable {k : Course} {c : Cursor}

theorem Course.speedAt_of_none (h : k.pending = none) (n : Word32) : k.speedAt n = k.speed := by
  unfold Course.speedAt
  rw [h]

theorem Course.speedAt_of_some {w : Int} {p : Word32} (h : k.pending = some (w, p)) (n : Word32) :
    k.speedAt n = if n = p ∨ later n p then w else k.speed := by
  unfold Course.speedAt atOrAfter
  rw [h]
  simp only [Bool.or_eq_true, beq_iff_eq]

/-- R77's condition. -/
theorem Course.edgeNext_iff : k.edgeNext c = true ↔ k.holds = true ∧ 0 < k.speedAt c.period ∧
    (k.high < c.pos + k.speedAt c.period ∨ (c.edge = true ∧ c.pos = 16 * (k.lastFrame : Int))) := by
  simp only [Course.edgeNext, Bool.and_eq_true, Bool.or_eq_true, decide_eq_true_eq, beq_iff_eq, gt_iff_lt, and_assoc]

theorem Course.next_of_edge (h : k.edgeNext c = true) : k.next c = some ⟨c.period + 1, 16 * (k.lastFrame : Int), true⟩ := by
  unfold Course.next
  rw [if_pos h]

theorem Course.next_of_inside (h : k.edgeNext c = false) (hl : k.low ≤ c.pos + k.speedAt c.period)
    (hh : c.pos + k.speedAt c.period ≤ k.high) : k.next c = some ⟨c.period + 1, c.pos + k.speedAt c.period, false⟩ := by
  unfold Course.next
  rw [if_neg (by rw [h]; decide), if_pos ⟨hl, hh⟩]

theorem Course.next_of_outside (h : k.edgeNext c = false)
    (ho : c.pos + k.speedAt c.period < k.low ∨ k.high < c.pos + k.speedAt c.period) :
    k.next c = if k.loop then some ⟨c.period + 1, k.wrap (c.pos + k.speedAt c.period), false⟩ else none := by
  unfold Course.next
  rw [if_neg (by rw [h]; decide), if_neg (by omega)]

/-- A wrap moves a position by whole loop lengths into the range (R75). -/
theorem Course.wrap_spec (h : k.inPoint ≤ k.lastFrame) (p : Int) :
    k.low ≤ k.wrap p ∧ k.wrap p ≤ k.high ∧ ∃ z : Int, k.wrap p = p + z * k.loopLength := by
  have positive : 0 < k.loopLength := by unfold Course.loopLength; omega
  have wraps : k.wrap p = k.low + (p - k.low) % k.loopLength := by
    unfold Course.wrap modFloor
    rw [Int.fmod_eq_emod_of_nonneg _ positive.le]
  have lower := Int.emod_nonneg (p - k.low) positive.ne'
  have upper := Int.emod_lt_of_pos (p - k.low) positive
  refine ⟨by omega, ?_, -((p - k.low) / k.loopLength), ?_⟩
  · simp only [Course.high, Course.low, Course.loopLength] at *
    omega
  · rw [wraps, Int.emod_def]
    ring

/-- The next period lies in the range; at the live edge it is at 16L, which the course follows (R47, R77). -/
theorem Course.next_place {d : Cursor} (h : k.inPoint ≤ k.lastFrame) (hn : k.next c = some d) :
    (k.low ≤ d.pos ∧ d.pos ≤ k.high) ∧ (d.edge = true → k.holds = true ∧ d.pos = 16 * (k.lastFrame : Int)) := by
  cases he : k.edgeNext c with
  | true =>
    rw [Course.next_of_edge he] at hn
    cases hn
    refine ⟨?_, fun _ => ⟨(Course.edgeNext_iff.1 he).1, rfl⟩⟩
    simp only [Course.low, Course.high]
    omega
  | false =>
    by_cases inside : k.low ≤ c.pos + k.speedAt c.period ∧ c.pos + k.speedAt c.period ≤ k.high
    · rw [Course.next_of_inside he inside.1 inside.2] at hn
      cases hn
      exact ⟨inside, nofun⟩
    · rw [Course.next_of_outside he (by omega)] at hn
      split at hn
      · cases hn
        obtain ⟨low, high, -⟩ := Course.wrap_spec h (c.pos + k.speedAt c.period)
        exact ⟨⟨low, high⟩, nofun⟩
      · cases hn

/-- Under a course with I at most L, each next position is R74's to R77's. -/
theorem Course.next_cases {k : Course} {x : Cursor} {v low high : Int} (range : k.inPoint ≤ k.lastFrame) (hlow : low = 16 * k.inPoint)
    (hhigh : high = 16 * k.lastFrame + 15) (hv : v = k.speedAt x.period) :
    (k.holds = true → 0 < v → high < x.pos + v ∨ (x.edge = true ∧ x.pos = 16 * k.lastFrame) →
      k.next x = some ⟨x.period + 1, 16 * k.lastFrame, true⟩) ∧
    (¬(k.holds = true ∧ 0 < v ∧ (high < x.pos + v ∨ (x.edge = true ∧ x.pos = 16 * k.lastFrame))) →
      (low ≤ x.pos + v → x.pos + v ≤ high → k.next x = some ⟨x.period + 1, x.pos + v, false⟩) ∧
      (x.pos + v < low ∨ high < x.pos + v → k.loop = true →
        ∃ y z : Int, k.next x = some ⟨x.period + 1, y, false⟩ ∧ low ≤ y ∧ y ≤ high ∧
          y = x.pos + v + z * (16 * ((k.lastFrame : Int) - k.inPoint + 1))) ∧
      (x.pos + v < low ∨ high < x.pos + v → k.loop = false → k.next x = none)) := by
  subst hlow hhigh hv
  refine ⟨fun hh hp hc => Course.next_of_edge (Course.edgeNext_iff.2 ⟨hh, hp, hc⟩), fun hne => ?_⟩
  have off : k.edgeNext x = false := Bool.eq_false_iff.2 fun he => hne (Course.edgeNext_iff.1 he)
  refine ⟨Course.next_of_inside off, fun outside loop => ?_, fun outside loop => ?_⟩
  · obtain ⟨hl, hh, z, hz⟩ := Course.wrap_spec range (x.pos + k.speedAt x.period)
    refine ⟨_, z, ?_, hl, hh, hz⟩
    rw [Course.next_of_outside off outside, if_pos loop]
  · rw [Course.next_of_outside off outside, if_neg (by rw [loop]; decide)]

end

/-! ## The place of a channel -/

/-- What the ninth law says of one channel record (R47, R55, R70, R77). -/
structure Channel.Placed (ch : Channel) : Prop where
  range : ch.inPoint ≤ ch.lastFrame
  pos : ch.state ≠ .free → ch.state ≠ .idle →
    16 * (ch.inPoint : Int) ≤ ch.pos ∧ ch.pos ≤ 16 * (ch.lastFrame : Int) + 15
  start : ch.start.isSome = true → ch.state ≠ .free ∧ ch.state ≠ .idle
  edge : ch.edge = (ch.state == .running && ch.atEdge)
  atEdge : ch.atEdge = true → ch.follow = true ∧ ch.pos = 16 * (ch.lastFrame : Int)

theorem positionsHeld_iff (s : State) : PositionsHeld s ↔ ∀ c, (s.chan c).Placed :=
  forall_congr' fun _ => ⟨fun ⟨range, pos, start, edge, atEdge⟩ => ⟨range, pos, start, edge, atEdge⟩,
    fun ⟨range, pos, start, edge, atEdge⟩ => ⟨range, pos, start, edge, atEdge⟩⟩

theorem clampPosition_range {i l : Nat} (h : i ≤ l) (p : Int) :
    16 * (i : Int) ≤ clampPosition i l p ∧ clampPosition i l p ≤ 16 * (l : Int) + 15 := by
  unfold clampPosition clampInt
  split
  · omega
  · split <;> omega

theorem clampPosition_of_range {i l : Nat} {p : Int} (h : 16 * (i : Int) ≤ p) (h' : p ≤ 16 * (l : Int) + 15) :
    clampPosition i l p = p := by
  unfold clampPosition clampInt
  rw [if_neg (by omega), if_neg (by omega)]

namespace Channel.Placed
variable {a b : Channel}

theorem initial : Channel.initial.Placed := ⟨Nat.le_refl _, fun h => absurd rfl h, nofun, rfl, nofun⟩

/-- A channel that does not run shows no EDGE. -/
theorem edge_of_still (h : a.Placed) (hs : a.state ≠ .running) : a.edge = false := by
  rw [h.edge, show (a.state == .running) = false from beq_eq_false_iff_ne.2 hs, Bool.false_and]

/-- The place goes by what the consequences of an event leave, and a cue's completion keeps it. -/
theorem of_kept (h : a.Placed) (hk : b.kept = a.kept) (hs : b.state = a.state ∨ (a.state = .cueing ∧ b.state = .cued)) :
    b.Placed := by
  have stands : ({ a.kept with state := b.state } : Channel).Placed := by
    rcases hs with hs | ⟨hs, hb⟩
    · rw [hs]
      exact ⟨h.range, h.pos, h.start, h.edge, h.atEdge⟩
    · rw [hb]
      exact ⟨h.range, fun _ _ => h.pos (by rw [hs]; decide) (by rw [hs]; decide), fun _ => ⟨nofun, nofun⟩,
        h.edge_of_still (by rw [hs]; decide), h.atEdge⟩
  rw [← hk] at stands
  exact ⟨stands.range, stands.pos, stands.start, stands.edge, stands.atEdge⟩

/-- A new range clamps the position; a due index at the edge stays there under the same L alone (R47, R77). -/
theorem ranged (start : a.start.isSome = true → a.state ≠ .free ∧ a.state ≠ .idle)
    (edge : a.edge = (a.state == .running && a.atEdge)) {i l : Nat} (hi : i ≤ l) : (a.withRange i l).Placed where
  range := hi
  pos _ _ := clampPosition_range hi a.pos
  start := start
  edge := by
    show (a.edge && a.edgeUnder l) = (a.state == .running && (a.atEdge && a.edgeUnder l))
    rw [edge, Bool.and_assoc]
  atEdge he := by
    have he : (a.atEdge && (a.follow && l == a.lastFrame && a.pos == 16 * (l : Int))) = true := he
    simp only [Bool.and_eq_true, beq_iff_eq] at he
    obtain ⟨-, ⟨follow, -⟩, pos⟩ := he
    exact ⟨follow, (clampPosition_of_range (by omega) (by omega)).trans pos⟩

theorem withRange (h : a.Placed) {i l : Nat} (hi : i ≤ l) : (a.withRange i l).Placed := ranged h.start h.edge hi

theorem withOptions (h : a.Placed) {o : ChanOptionsArgs} {l : Nat} (hi : o.inPoint ≤ l) : (a.withOptions o l).Placed := by
  have r := ranged (a := { a with loop := o.loop, follow := o.follow }) h.start h.edge hi
  exact ⟨r.range, r.pos, r.start, r.edge, r.atEdge⟩

/-- A position given by a request is none at the edge (R77, log 39). -/
theorem repositioned (h : a.Placed) {p : Int} (hp : 16 * (a.inPoint : Int) ≤ p ∧ p ≤ 16 * (a.lastFrame : Int) + 15) :
    ({ a with pos := p, edge := false, atEdge := false } : Channel).Placed :=
  ⟨h.range, fun _ _ => hp, h.start, by simp, nofun⟩

/-- A channel HELD within its range, off the edge. -/
theorem stopped (h : a.Placed) {p : Int} (hp : 16 * (a.inPoint : Int) ≤ p ∧ p ≤ 16 * (a.lastFrame : Int) + 15) :
    ({ a with state := .held, pos := p, edge := false, atEdge := false } : Channel).Placed :=
  ⟨h.range, fun _ _ => hp, fun _ => ⟨nofun, nofun⟩, rfl, nofun⟩

/-- The due index moves on under the channel's own course. -/
theorem moveTo {s : State} {x : Cursor} {d : Cursor} (h : a.Placed) (hs : a.state = .running)
    (hb : (b.inPoint, b.lastFrame, b.follow) = (a.inPoint, a.lastFrame, a.follow)) (hn : (courseOf s b).next x = some d) :
    (a.moveTo d).Placed := by
  simp only [Prod.mk.injEq] at hb
  obtain ⟨hi, hl, hf⟩ := hb
  obtain ⟨pos, edge⟩ := Course.next_place (k := courseOf s b) (by show b.inPoint ≤ b.lastFrame; rw [hi, hl]; exact h.range) hn
  have pos : 16 * (b.inPoint : Int) ≤ d.pos ∧ d.pos ≤ 16 * (b.lastFrame : Int) + 15 := pos
  have edge : d.edge = true → (b.follow && (s.clip b.clip).growing) = true ∧ d.pos = 16 * (b.lastFrame : Int) := edge
  rw [hi, hl] at pos
  refine ⟨h.range, fun _ _ => pos, h.start, ?_, fun he => ?_⟩
  · show d.edge = (a.state == .running && d.edge)
    rw [hs]; simp
  · obtain ⟨holds, at16⟩ := edge he
    rw [hf, Bool.and_eq_true] at holds
    exact ⟨holds.1, hl ▸ at16⟩

end Channel.Placed

end Sys2Proof.Machine

/-! SUPPORT. The settling of a period (R88, R100): each of its outcomes, the records written, and a ring with no free slot, which
stands through all that follows. -/

namespace Sys2Proof.Machine

section
variable {s : State} {c : Nat}

/-! ## The outcomes of a settling -/

theorem settlePeriod_of_record (h : (s.chan c).recordFrom (s.chan c).dueIndex = true) : settlePeriod s c = (s, .shown) := by
  unfold settlePeriod
  exact if_pos h

theorem settlePeriod_of_full (h : (s.chan c).recordFrom (s.chan c).dueIndex = false) (hf : (s.ring c).free = 0) :
    settlePeriod s c = (skipPeriod s c, .skipped) := by
  unfold settlePeriod
  exact (if_neg (by rw [h]; decide)).trans (if_pos hf)

/-- The entry of the due index calls for a REPEAT that nothing bars (R87, R97, R100). -/
def Channel.repeats (ch : Channel) (r : Ring) (e : ListEntry) : Bool :=
  ch.callsRepeat e ch.dueIndex && !r.bars ch.dueIndex && !e.status.lost

theorem settlePeriod_of_none (h : (s.chan c).recordFrom (s.chan c).dueIndex = false) (hf : 0 < (s.ring c).free)
    (he : (s.chan c).entryAt (s.chan c).dueIndex = none) :
    settlePeriod s c = (writeMiss s c .notReady (s.chan c).due, .missed) := by
  unfold settlePeriod
  dsimp only
  rw [if_neg (by rw [h]; decide), if_neg hf.ne', he]

theorem settlePeriod_of_entry {e : ListEntry} (h : (s.chan c).recordFrom (s.chan c).dueIndex = false) (hf : 0 < (s.ring c).free)
    (he : (s.chan c).entryAt (s.chan c).dueIndex = some e) :
    settlePeriod s c = if (s.chan c).repeats (s.ring c) e then (writeRepeat s c e (s.chan c).due, .shown)
      else (writeMiss s c e.status.missReason (s.chan c).due, .missed) := by
  unfold settlePeriod
  dsimp only
  rw [if_neg (by rw [h]; decide), if_neg hf.ne', he]
  rfl

/-- All that the settling of a period may do. -/
inductive SettledBy (s : State) (c : Nat) : State × Settled → Prop where
  | shown : SettledBy s c (s, .shown)
  | skipped : SettledBy s c (skipPeriod s c, .skipped)
  | again (e : ListEntry) : SettledBy s c (writeRepeat s c e (s.chan c).due, .shown)
  | missed (reason : MissReason) : SettledBy s c (writeMiss s c reason (s.chan c).due, .missed)

theorem settlePeriod_settled (s : State) (c : Nat) : SettledBy s c (settlePeriod s c) := by
  cases h : (s.chan c).recordFrom (s.chan c).dueIndex with
  | true => rw [settlePeriod_of_record h]; exact .shown
  | false =>
    rcases Nat.eq_zero_or_pos (s.ring c).free with hf | hf
    · rw [settlePeriod_of_full h hf]; exact .skipped
    · cases he : (s.chan c).entryAt (s.chan c).dueIndex with
      | none => rw [settlePeriod_of_none h hf he]; exact .missed _
      | some e =>
        rw [settlePeriod_of_entry h hf he]
        split
        · exact .again e
        · exact .missed _

/-- A record of the due index changes the last record period alone of its channel. -/
theorem written_chan (d : Record) (n : Word32) :
    (markWritten (writeNoData s c d) c n).chan c = { s.chan c with lastRecord := some n, listStands := false } := by
  have same : (writeNoData s c d).chan c = s.chan c := by unfold State.chan; rw [writeNoData_chans]
  unfold markWritten
  rw [State.chan_modChan_self, same]
  rfl

theorem SettledBy.chan {x : State × Settled} (h : SettledBy s c x) :
    ∃ r b, x.1.chan c = { s.chan c with lastRecord := r, listStands := b } := by
  cases h with
  | shown => exact ⟨_, _, rfl⟩
  | skipped => exact ⟨_, _, rfl⟩
  | again e => exact ⟨_, _, written_chan _ _⟩
  | missed reason => exact ⟨_, _, written_chan _ _⟩

theorem SettledBy.follows {x : State × Settled} (h : SettledBy s c x) : Follows s x.1 := by
  cases h with
  | shown => exact Follows.refl s
  | skipped => exact Follows.modRing s c (fun r => { r with gap := min Config.maxGap (r.gap + 1) }) rfl
  | again e => exact writeRepeat_follows _ _ _ _
  | missed reason => exact writeMiss_follows _ _ _ _

theorem SettledBy.store {x : State × Settled} (h : SettledBy s c x) : x.1.store = s.store := by
  cases h with
  | shown => rfl
  | skipped => rfl
  | again e => exact writeNoData_store _ _ _
  | missed reason => exact writeNoData_store _ _ _

/-! ## Records written -/

theorem mem_outputsSince_emit {t : State} {o : Output} (ho : t.out = s.out ++ [o]) : o ∈ outputsSince s t := by
  unfold outputsSince
  rw [ho, List.drop_left]
  exact List.mem_singleton_self o

/-- A record without data stands in the next slot with the gap count (R94, R95). -/
theorem writeNoData_record (s : State) (c : Nat) (d : Record) :
    .record ((s.ring c).recordAddress (s.ring c).nextSlot) { d with gap := (s.ring c).gap } ∈ outputsSince s (writeNoData s c d) := by
  unfold outputsSince writeNoData publishOne
  dsimp only
  split
  · exact mem_outputsSince_emit rfl
  · simp [State.emit]

/-- With no transfer in flight the slot is published at once: the produce word is written one higher (R94). -/
theorem writeNoData_produces (d : Record) (h : (s.ring c).transfer = none) :
    .produceWord (s.ring c).produceAddress ((s.ring c).produce + 1) ∈ outputsSince s (writeNoData s c d) := by
  have taken : (((s.setRing c { (s.ring c).advance with taken := (s.ring c).taken + 1 }).emit
      (.record ((s.ring c).recordAddress (s.ring c).nextSlot) { d with gap := (s.ring c).gap })).ring c) =
        { (s.ring c).advance with taken := (s.ring c).taken + 1 } := (State.ring_setRing _ _ _ _).trans (if_pos rfl)
  unfold outputsSince writeNoData
  dsimp only
  rw [h, if_neg (by decide)]
  unfold publishOne
  dsimp only
  rw [taken]
  simp [State.emit, Ring.advance, Ring.produceAddress, Ring.recordAddress]

/-- The record of the due index, at its due time, with the gap count it takes (R95). -/
theorem periodRecord_due {kind : RecordKind} {reason : MissReason} {short : Bool} {d : Nat} (hs : (s.chan c).state = .running)
    (hd : (s.chan c).dueTime = some d) (gap : Nat) :
    { periodRecord s (s.chan c) kind reason short 0 (s.chan c).due with gap := gap } =
      ⟨kind, reason, ((courseOf s (s.chan c)).next (s.chan c).due).isNone, (s.chan c).atEdge, short, (s.chan c).clip, gap,
        (s.chan c).dueIndex, frameOf (s.chan c).pos, 0, d % 4294967296⟩ := by
  have low : (s.chan c).dueLow (s.chan c).dueIndex = d % 4294967296 := by
    unfold Channel.dueLow Channel.dueOf
    dsimp only
    rw [if_pos hs, hd]
    simp [periodsAfter]
  rw [← low]
  rfl

/-- The reason of a MISS of the due index: NOT_READY without an entry, else by its status (R88). -/
theorem settlePeriod_missed (h : (s.chan c).recordFrom (s.chan c).dueIndex = false) (hf : 0 < (s.ring c).free)
    (hm : ∀ e, (s.chan c).entryAt (s.chan c).dueIndex = some e → (s.chan c).repeats (s.ring c) e = false) :
    ∃ reason, ((s.chan c).entryAt (s.chan c).dueIndex = none → reason = .notReady) ∧
      (∀ e, (s.chan c).entryAt (s.chan c).dueIndex = some e → reason = e.status.missReason) ∧
      settlePeriod s c = (writeMiss s c reason (s.chan c).due, .missed) := by
  cases he : (s.chan c).entryAt (s.chan c).dueIndex with
  | none => exact ⟨.notReady, fun _ => rfl, nofun, settlePeriod_of_none h hf he⟩
  | some e =>
    refine ⟨e.status.missReason, nofun, fun x hx => by cases hx; rfl, (settlePeriod_of_entry h hf he).trans (if_neg ?_)⟩
    rw [hm e he]
    decide

theorem settlePeriod_again {e : ListEntry} (h : (s.chan c).recordFrom (s.chan c).dueIndex = false) (hf : 0 < (s.ring c).free)
    (he : (s.chan c).entryAt (s.chan c).dueIndex = some e) (hr : (s.chan c).repeats (s.ring c) e = true) :
    settlePeriod s c = (writeRepeat s c e (s.chan c).due, .shown) := by
  rw [settlePeriod_of_entry h hf he, if_pos hr]

theorem Ring.bars_eq_false {r : Ring} {n : Word32} : r.bars n = false ↔
    ∀ x, r.transfer = some x → later n x.record.period = false := by
  unfold Ring.bars
  cases r.transfer with
  | none => exact ⟨fun _ => nofun, fun _ => rfl⟩
  | some t => exact ⟨fun h x hx => by cases hx; exact h, fun h => h t rfl⟩

theorem Channel.repeats_iff {ch : Channel} {r : Ring} {e : ListEntry} : ch.repeats r e = true ↔
    e.beginsBefore ch.dueIndex = true ∧ ch.priorShown = true ∧
      (∀ x, r.transfer = some x → later ch.dueIndex x.record.period = false) ∧ e.status.lost = false := by
  simp only [Channel.repeats, Channel.callsRepeat, Channel.shownBefore, if_true, Bool.and_eq_true, Bool.not_eq_true',
    Ring.bars_eq_false, and_assoc]

/-- Where one of R87's conditions fails no REPEAT stands for the due index. -/
theorem Channel.repeats_eq_false {ch : Channel} {r : Ring} {e : ListEntry}
    (h : e.beginsBefore ch.dueIndex = false ∨ ch.priorShown = false ∨
      (∃ x, r.transfer = some x ∧ later ch.dueIndex x.record.period = true) ∨ e.status.lost = true) : ch.repeats r e = false := by
  refine Bool.eq_false_iff.2 fun hr => ?_
  obtain ⟨begins, shown, bars, lost⟩ := Channel.repeats_iff.1 hr
  rcases h with h | h | ⟨x, hx, h⟩ | h
  · exact absurd (begins.symm.trans h) (by decide)
  · exact absurd (shown.symm.trans h) (by decide)
  · exact absurd (h.symm.trans (bars x hx)) (by decide)
  · exact absurd (h.symm.trans lost) (by decide)

/-! ## A ring with no free slot -/

/-- The rings that `t` changes had a free slot in `s` (R97, R101). -/
def FullStand (s t : State) : Prop := ∀ c, (s.ring c).free = 0 → t.ring c = s.ring c

theorem FullStand.trans {t u : State} (a : FullStand s t) (b : FullStand t u) : FullStand s u := fun c h =>
  (b c (by rw [a c h]; exact h)).trans (a c h)

theorem FullStand.ofRings {t : State} (h : t.rings = s.rings) : FullStand s t := fun _ _ => by unfold State.ring; rw [h]

theorem Acts.fullStand {t : State} (a : Acts (fun _ => False) s t) : FullStand s t := fun c _ => a.rings c id

theorem writeNoData_ring_ne (d : Record) {i : Nat} (h : i ≠ c) : (writeNoData s c d).ring i = s.ring i := by
  have put : ∀ (u : State) (r : Ring) (o : Output), ((u.setRing c r).emit o).ring i = u.ring i := fun u r o =>
    (State.ring_setRing _ _ _ _).trans (if_neg h)
  unfold writeNoData publishOne
  dsimp only
  split
  · exact put _ _ _
  · exact (put _ _ _).trans (put _ _ _)

theorem deliverOne_ring_ne {t : State} {i : Nat} (ht : deliverOne s c = some t) (h : i ≠ c) : t.ring i = s.ring i := by
  unfold deliverOne at ht
  dsimp only at ht
  split at ht
  · cases ht
  · split at ht
    · cases ht
      exact ((State.ring_modRing _ _ _ _).trans (if_neg h)).trans (writeNoData_ring_ne _ h)
    · split at ht
      · unfold deliverPeriod at ht
        dsimp only at ht
        split at ht
        · cases ht
        · split at ht
          · split at ht
            · split at ht
              · cases ht
              · cases ht
                exact writeNoData_ring_ne _ h
            · unfold beginIfReady at ht
              split at ht
              · obtain ⟨x, -, rfl⟩ := Option.map_eq_some_iff.1 ht
                exact (State.ring_setRing _ _ _ _).trans (if_neg h)
              · cases ht
          · cases ht
      · cases ht

theorem deliverStep_fullStand {t : State} (h : deliverStep s = some t) : FullStand s t := by
  obtain ⟨x, -, hx⟩ := firstSome_mem h
  refine fun i hi => deliverOne_ring_ne hx ?_
  rintro rfl
  unfold deliverOne at hx
  rw [if_pos (.inr hi)] at hx
  cases hx

theorem extendStep_fullStand {t : State} (h : extendStep s = some t) : FullStand s t := by
  obtain ⟨x, -, hx⟩ := firstSome_mem h
  unfold extendOne at hx
  split at hx
  · obtain ⟨d, -, rfl⟩ := Option.map_eq_some_iff.1 hx
    exact FullStand.ofRings rfl
  · cases hx

theorem cueStep_fullStand {t : State} (h : cueStep s = some t) : FullStand s t := by
  obtain ⟨x, -, hx⟩ := firstSome_mem h
  unfold cueOne at hx
  split at hx
  · cases hx
    refine FullStand.ofRings ?_
    unfold completeCue
    dsimp only
    split <;> rfl
  · cases hx

theorem issueStep_fullStand {t : State} (h : issueStep s = some t) : FullStand s t := by
  obtain ⟨m, -, hm⟩ := firstSome_mem h
  unfold issueOne at hm
  split at hm
  · split at hm
    · cases hm
    · split at hm
      · cases hm
      · cases hm
        exact FullStand.ofRings rfl
  · cases hm

theorem orStep_fullStand {a b : State → Option State} (ha : ∀ {t}, a s = some t → FullStand s t)
    (hb : ∀ {t}, b s = some t → FullStand s t) {t : State} (h : orStep a b s = some t) : FullStand s t := by
  unfold orStep at h
  split at h
  · rename_i x hx
    cases h
    exact ha hx
  · exact hb h

theorem settleStep_fullStand {t : State} (h : settleStep s = some t) : FullStand s t :=
  orStep_fullStand (fun h => (handStep_acts h).fullStand) (orStep_fullStand (fun h => (judgeOverload_acts h).fullStand)
    (orStep_fullStand (fun h => (grantHead_acts h).fullStand) (orStep_fullStand (fun h => by
        obtain ⟨x, -, hx⟩ := firstSome_mem h
        obtain ⟨i, -, rfl⟩ := Option.map_eq_some_iff.1 hx
        exact (resolveAt_acts _ _ _).fullStand)
      (orStep_fullStand extendStep_fullStand (orStep_fullStand cueStep_fullStand
        (orStep_fullStand deliverStep_fullStand issueStep_fullStand)))))) h

theorem settleFor_fullStand (n : Nat) (s : State) : FullStand s (settleFor n s) := by
  induction n generalizing s with
  | zero => exact FullStand.ofRings rfl
  | succ n ih =>
    have fresh := (refreshUrgency_acts (S := fun _ => False) s).fullStand
    unfold settleFor
    dsimp only
    split
    · rename_i t ht
      exact (fresh.trans (settleStep_fullStand ht)).trans (ih t)
    · exact fresh

/-- A ring with no free slot stands through the rest of its event. -/
theorem endEvent_fullStand (s0 s : State) : FullStand s (endEvent s0 s) :=
  (settleFor_fullStand _ s).trans (FullStand.ofRings (startRead_finish s0 _).rings)

end

end Sys2Proof.Machine

/-! SUPPORT. DUE_TIME (R88, R90): the settling of the period, the due index moved on, the passed entries released, the PRIME count, the
pending course reached, and the end of play. -/

namespace Sys2Proof.Machine

/-! ## The channel record -/

/-- The speed stored and the course left pending once the due index is `n` (R60). -/
def courseReached (speed : Int) (course : Option PendingCourse) (n : Word32) : Int × Option PendingCourse :=
  match course with
  | some q => if q.change = n then (q.speed, none) else (speed, some q)
  | none => (speed, none)

/-- The record with the course reached by its due index. -/
def Channel.reached (ch : Channel) : Channel :=
  { ch with
    speed := (courseReached ch.speed ch.course ch.dueIndex).1, course := (courseReached ch.speed ch.course ch.dueIndex).2 }

/-- The record once its period is settled, the due index moved on and the course reached: R89 and R90 steps 1, 3, 4 and 6. -/
def Channel.dueMoved (ch : Channel) (how : Settled) (d : Cursor) (overload : Bool) : Channel :=
  { ch with
    dueIndex := d.period, dueTime := ch.dueTime.map (· + ch.period), pos := d.pos, edge := d.edge, atEdge := d.edge
    missing := ch.missing || how != .shown
    priorRecord := if how = .skipped then ch.priorRecord else some ch.dueIndex
    priorShown := how == .shown
    remaining := if ch.phase = .prime ∧ overload = false then ch.remaining - 1 else ch.remaining
    phase := if ch.phase = .prime ∧ overload = false ∧ ch.remaining ≤ 1 then .sustain else ch.phase
    speed := (courseReached ch.speed ch.course d.period).1
    course := (courseReached ch.speed ch.course d.period).2 }

/-- The record of a channel HELD at the end of play (R76). -/
def Channel.dueEnded (ch : Channel) (p : Int) (now : Nat) : Channel :=
  { ch with
    pos := p, dueTime := none, base := some now, edge := false, atEdge := false
    speed := (ch.course.map PendingCourse.speed).getD ch.speed, course := none }

/-- What a due time leaves of a record whether or not play ends. -/
def Channel.tally (ch : Channel) : Word32 × Nat × Phase × Bool × Option Word32 × Bool :=
  (ch.dueIndex, ch.remaining, ch.phase, ch.missing, ch.priorRecord, ch.priorShown)

theorem Channel.countPrime_eq (ch : Channel) (o : Bool) : ch.countPrime o = { ch with
    remaining := if ch.phase = .prime ∧ o = false then ch.remaining - 1 else ch.remaining
    phase := if ch.phase = .prime ∧ o = false ∧ ch.remaining ≤ 1 then .sustain else ch.phase } := by
  unfold Channel.countPrime
  by_cases counts : ch.phase = .prime ∧ o = false
  · obtain ⟨phase, rfl⟩ := counts
    simp [phase]
  · rw [if_neg (by simpa using counts), if_neg counts, if_neg fun h => counts ⟨h.1, h.2.1⟩]

theorem Channel.kept_congr (f : Channel → Channel) {a b : Channel} (h : a.kept = b.kept)
    (hf : ∀ ch : Channel, (f ch.kept).kept = (f ch).kept) : (f a).kept = (f b).kept := by rw [← hf, h, hf]

theorem Course.next_period {k : Course} {c d : Cursor} (h : k.next c = some d) : d.period = c.period + 1 := by
  cases he : k.edgeNext c with
  | true => rw [Course.next_of_edge he] at h; cases h; rfl
  | false =>
    by_cases inside : k.low ≤ c.pos + k.speedAt c.period ∧ c.pos + k.speedAt c.period ≤ k.high
    · rw [Course.next_of_inside he inside.1 inside.2] at h; cases h; rfl
    · rw [Course.next_of_outside he (by omega)] at h
      split at h
      · cases h; rfl
      · cases h

section
variable {s : State} {c : Nat}

/-- What the due index moves on to: the next period, or the end period at the old position (R76, R90 step 1). -/
def dueNext (s : State) (c : Nat) : Cursor := (nextDue s c).getD ⟨(s.chan c).dueIndex + 1, (s.chan c).pos, false⟩

theorem dueNext_period (s : State) (c : Nat) : (dueNext s c).period = (s.chan c).dueIndex + 1 := by
  unfold dueNext
  cases hn : nextDue s c with
  | none => rfl
  | some d => exact Course.next_period hn

theorem settleAndMove_chan (s : State) (c : Nat) : ∃ r b, (settleAndMove s c).chan c =
    (({ s.chan c with lastRecord := r, listStands := b } : Channel).settled (s.chan c).dueIndex (settlePeriod s c).2).moveTo
      (dueNext s c) := by
  obtain ⟨r, b, chan⟩ := (settlePeriod_settled s c).chan
  refine ⟨r, b, ?_⟩
  unfold settleAndMove
  dsimp only
  rw [State.chan_modChan_self, State.chan_modChan_self, chan]
  rfl

theorem settleAndMove_store (s : State) (c : Nat) : (settleAndMove s c).store = s.store :=
  show (settlePeriod s c).1.store = s.store from (settlePeriod_settled s c).store

/-- The period settled, the passed entries released, the PRIME count made and the course reached (R90 steps 1 to 4). -/
def duePassed (s : State) (c : Nat) : State :=
  reachCourse ((releasePassed s c).modChan c (fun ch => ch.countPrime (releasePassed s c).store.overload)) c

theorem duePeriod_of_some {d : Cursor} (h : nextDue s c = some d) : duePeriod s c = duePassed s c :=
  if_pos (by rw [h]; rfl)

theorem duePeriod_of_none (h : nextDue s c = none) : duePeriod s c =
    endPlay (duePassed s c) c (endPosition (s.chan c) ((courseOf s (s.chan c)).speedAt (s.chan c).dueIndex)) :=
  if_neg (by rw [h]; decide)

theorem reachCourse_chan (u : State) (c : Nat) : (reachCourse u c).chan c = (u.chan c).reached := by
  unfold reachCourse Channel.reached courseReached
  generalize hch : u.chan c = ch
  cases hq : ch.course with
  | none =>
    show u.chan c = { ch with speed := ch.speed, course := none }
    rw [hch, ← hq]
  | some q =>
    dsimp only
    split
    · unfold applyCourse
      rw [hch, hq]
      exact (State.chan_modChan_self _ c _).trans (by rw [← hch]; rfl)
    · show u.chan c = { ch with speed := ch.speed, course := some q }
      rw [hch, ← hq]

theorem releasePassed_kept (s : State) (c : Nat) : ((releasePassed s c).chan c).kept =
    (((s.chan c).settled (s.chan c).dueIndex (settlePeriod s c).2).moveTo (dueNext s c)).kept := by
  obtain ⟨r, b, chan⟩ := settleAndMove_chan s c
  refine ((dropPassed_follows _ _ _).chans c).trans ?_
  rw [chan]
  rfl

theorem duePassed_kept (s : State) (c : Nat) : ((duePassed s c).chan c).kept =
    ((s.chan c).dueMoved (settlePeriod s c).2 (dueNext s c) (releasePassed s c).store.overload).kept := by
  generalize ho : (releasePassed s c).store.overload = o
  have counted := Channel.kept_congr (fun ch => (ch.countPrime o).reached) (releasePassed_kept s c) fun ch => by
    rw [Channel.countPrime_eq, Channel.countPrime_eq]; rfl
  unfold duePassed
  rw [ho, reachCourse_chan, State.chan_modChan_self]
  exact counted.trans (by rw [Channel.countPrime_eq]; rfl)

theorem duePassed_state (hs : (s.chan c).state = .running) : ((duePassed s c).chan c).state = .running := by
  obtain ⟨r, b, chan⟩ := settleAndMove_chan s c
  have moved : ((settleAndMove s c).chan c).state = .running := (congrArg (·.state) chan).trans hs
  have released : ((releasePassed s c).chan c).state = .running := by
    rcases (dropPassed_follows (settleAndMove s c) c (s.chan c).dueIndex).state c with h | ⟨h, -⟩
    · exact h.trans moved
    · exact absurd (h.symm.trans moved) (by decide)
  have reached : ∀ (ch : Channel) (o : Bool), (ch.countPrime o).reached.state = ch.state := fun ch o => by
    rw [Channel.countPrime_eq]; rfl
  unfold duePassed
  rw [reachCourse_chan, State.chan_modChan_self, reached, released]

/-! ## What a due time touches -/

theorem reachCourse_does (u : State) (c : Nat) : Does { chans := fun i => i = c } u (reachCourse u c) := by
  unfold reachCourse
  split
  · exact (applyCourse_does u c rfl).ite (Does.refl u)
  · exact Does.refl u

/-- What follows the settling of the period, but for the end of play. -/
theorem duePassed_after (s : State) (c : Nat) : Does { chans := fun i => i = c } (settlePeriod s c).1 (duePassed s c) := by
  have moved : Does { chans := fun i => i = c } (settlePeriod s c).1 (settleAndMove s c) := by
    unfold settleAndMove
    exact (Does.modChan _ c _ (.inl rfl)).trans (Does.modChan _ c _ (.inl rfl))
  have released : Does { chans := fun i => i = c } (settleAndMove s c) (releasePassed s c) := (dropPassed_follows _ _ _).does
  exact (moved.trans released).trans ((Does.modChan _ c _ (.inl rfl)).trans (reachCourse_does _ c))

theorem duePeriod_after (s : State) (c : Nat) : Does { chans := fun i => i = c } (settlePeriod s c).1 (duePeriod s c) := by
  cases hn : nextDue s c with
  | some d => rw [duePeriod_of_some hn]; exact duePassed_after s c
  | none => rw [duePeriod_of_none hn]; exact (duePassed_after s c).trans (endPlay_does _ _ _ rfl)

theorem duePeriod_does (s : State) (c : Nat) : Does { chans := fun i => i = c } s (duePeriod s c) :=
  (settlePeriod_settled s c).follows.does.trans (duePeriod_after s c)

theorem duePassed_now (s : State) (c : Nat) : (duePassed s c).now = s.now :=
  (duePassed_after s c).now.trans (settlePeriod_settled s c).follows.now

theorem duePeriod_kept_of_none (hn : nextDue s c = none) : ((duePeriod s c).chan c).kept =
    (((s.chan c).dueMoved (settlePeriod s c).2 (dueNext s c) (releasePassed s c).store.overload).dueEnded
      (endPosition (s.chan c) ((courseOf s (s.chan c)).speedAt (s.chan c).dueIndex)) s.now).kept := by
  have ended : ∀ (a b : Channel) (p : Int) (now : Nat), a.kept = b.kept → ({ a with
      state := .held, pos := p, dueTime := none, base := some now, edge := false, atEdge := false
      flags := a.flags ||| ChanFlag.playEnd
      speed := (a.course.map PendingCourse.speed).getD a.speed, course := none } : Channel).kept = (b.dueEnded p now).kept :=
    fun a b p now h => Channel.kept_congr (fun ch => ch.dueEnded p now) h fun _ => rfl
  rw [duePeriod_of_none hn, endPlay_chan, duePassed_now]
  exact ended _ _ _ _ (duePassed_kept s c)

theorem Channel.tally_of_kept {a b : Channel} (h : a.kept = b.kept) : a.tally = b.tally :=
  show a.kept.tally = b.kept.tally by rw [h]

theorem duePeriod_tally (s : State) (c : Nat) : ((duePeriod s c).chan c).tally =
    ((s.chan c).dueMoved (settlePeriod s c).2 (dueNext s c) (releasePassed s c).store.overload).tally := by
  have ended : ∀ (ch : Channel) (p : Int) (now : Nat), (ch.dueEnded p now).tally = ch.tally := fun _ _ _ => rfl
  cases hn : nextDue s c with
  | some d => rw [duePeriod_of_some hn]; exact Channel.tally_of_kept (duePassed_kept s c)
  | none => exact (Channel.tally_of_kept (duePeriod_kept_of_none hn)).trans (ended _ _ _)

theorem duePeriod_ring (s : State) (c i : Nat) : (duePeriod s c).ring i = (settlePeriod s c).1.ring i := by
  have set : ∀ (u : State) (l : List ListEntry), (setList u c l).ring i = u.ring i := fun _ _ => rfl
  have mod : ∀ (u : State) (f : Channel → Channel), (u.modChan c f).ring i = u.ring i := fun _ _ => rfl
  have reached : ∀ u : State, (reachCourse u c).ring i = u.ring i := fun u => by
    unfold reachCourse applyCourse
    split
    · split
      · split <;> rfl
      · rfl
    · rfl
  have moved : (settleAndMove s c).ring i = (settlePeriod s c).1.ring i := by
    unfold settleAndMove
    exact (mod _ _).trans (mod _ _)
  have released : (releasePassed s c).ring i = (settleAndMove s c).ring i := by
    unfold releasePassed dropPassed
    exact (releaseEntries_ring _ _ i).trans (set _ _)
  have passed : (duePassed s c).ring i = (settlePeriod s c).1.ring i := by
    unfold duePassed
    rw [reached, mod, released, moved]
  cases hn : nextDue s c with
  | some d => rw [duePeriod_of_some hn, passed]
  | none => rw [duePeriod_of_none hn, endPlay_ring, passed]

/-- The CHAN_SPEED of a course the due index reaches is answered OK (R60). -/
theorem duePassed_handed {q : PendingCourse} (hq : (s.chan c).course = some q) (hc : q.change = (s.chan c).dueIndex + 1) :
    (⟨q.ticket, .ok, false, 0, speedItems q.speed q.change.toNat⟩ : Handed) ∈ (duePassed s c).handed := by
  have record := releasePassed_kept s c
  have course := congrArg (fun ch => ch.course) record
  have due := congrArg (fun ch => ch.dueIndex) record
  unfold duePassed
  generalize (releasePassed s c).store.overload = o
  have chan := State.chan_modChan_self (releasePassed s c) c (fun ch => ch.countPrime o)
  rw [Channel.countPrime_eq] at chan
  generalize (releasePassed s c).modChan c (fun ch => ch.countPrime o) = u at chan
  have hcourse : (u.chan c).course = some q := (congrArg (·.course) chan).trans (course.trans hq)
  have hdue : (u.chan c).dueIndex = q.change := (congrArg (·.dueIndex) chan).trans (due.trans ((dueNext_period s c).trans hc.symm))
  unfold reachCourse applyCourse
  rw [hcourse, hdue]
  dsimp only
  rw [if_pos rfl]
  exact handed_reply _ _ _ _

/-! ## Overload once the passed entries are released (R84, R122) -/

/-- The release of references leaves overload as it was, or as the available pages call for. -/
theorem releaseEntries_overload (es : List ListEntry) (u : State) :
    ((∀ e ∈ es, e.ref = none) → releaseEntries u es = u) ∧
      (OverloadHeld u ∨ (∃ e ∈ es, e.ref ≠ none) → OverloadHeld (releaseEntries u es)) := by
  induction es generalizing u with
  | nil => exact ⟨fun _ => rfl, fun h => h.elim id nofun⟩
  | cons e es ih =>
    cases he : e.ref with
    | none =>
      have skip : releaseEntries u (e :: es) = releaseEntries u es := by
        unfold releaseEntries
        rw [List.foldl_cons, he]
      rw [skip]
      refine ⟨fun h => (ih u).1 fun x hx => h x (List.mem_cons_of_mem _ hx), fun h => (ih u).2 (h.imp_right ?_)⟩
      rintro ⟨x, hx, hr⟩
      rcases List.mem_cons.1 hx with rfl | hx
      · exact absurd he hr
      · exact ⟨x, hx, hr⟩
    | some id =>
      have release : releaseEntries u (e :: es) = releaseEntries (releaseRef u id) es := by
        unfold releaseEntries
        rw [List.foldl_cons, he]
      rw [release]
      refine ⟨fun h => absurd (he.symm.trans (h e (List.mem_cons_self ..))) nofun, fun _ => (ih _).2 (.inl ?_)⟩
      exact lowerCount_held _ _ _

/-- The entries that a due time passes. -/
theorem mem_passed {l : List ListEntry} {n : Word32} {e : ListEntry} :
    e ∈ l.filter (fun e => e.endsBefore (n + 1)) ↔ e ∈ l ∧ e.endsBefore (n + 1) = true := List.mem_filter

theorem releasePassed_eq (s : State) (c : Nat) : ∃ l, releasePassed s c = releaseEntries (setList (settleAndMove s c) c l)
    ((s.chan c).list.filter (fun e => e.endsBefore ((s.chan c).dueIndex + 1))) := by
  obtain ⟨r, b, chan⟩ := settleAndMove_chan s c
  have list : ((settleAndMove s c).chan c).list = (s.chan c).list := congrArg (·.list) chan
  unfold releasePassed dropPassed
  rw [list]
  exact ⟨_, rfl⟩

theorem releasePassed_overload (s : State) (c : Nat) :
    ((∀ e ∈ (s.chan c).list, e.endsBefore ((s.chan c).dueIndex + 1) = true → e.ref = none) →
      (releasePassed s c).store.overload = s.store.overload) ∧
    ((∃ e ∈ (s.chan c).list, e.endsBefore ((s.chan c).dueIndex + 1) = true ∧ e.ref ≠ none) →
      OverloadHeld (releasePassed s c)) := by
  obtain ⟨l, eq⟩ := releasePassed_eq s c
  rw [eq]
  obtain ⟨none, some⟩ := releaseEntries_overload
    ((s.chan c).list.filter (fun e => e.endsBefore ((s.chan c).dueIndex + 1))) (setList (settleAndMove s c) c l)
  refine ⟨fun h => ?_, fun ⟨e, he, ends, hr⟩ => some (.inr ⟨e, mem_passed.2 ⟨he, ends⟩, hr⟩)⟩
  rw [none fun e he => h e (mem_passed.1 he).1 (mem_passed.1 he).2]
  exact congrArg Store.overload (settleAndMove_store s c)

end

end Sys2Proof.Machine

/-! SUPPORT. `DueTimeMovesOn` (R88, R90): what the act of a due time leaves, read off the state after its event. -/

namespace Sys2Proof.Machine

section
variable {s t : State} {c d : Nat}

theorem exec_dueTime (hs : (s.chan c).state = .running) (hd : (s.chan c).dueTime = some d) (hnow : d ≤ s.time.house) :
    exec (.dueTime c) s = .next (endEvent s (duePeriod s c)) := by
  have due : reached s (s.chan c).dueTime = true := by
    rw [hd]
    exact decide_eq_true hnow
  exact congrArg Host.Outcome.next (if_pos ⟨hs, due⟩)

/-- The event of a due time, in which a ring with no free slot stands once its period is settled. -/
structure DueEvent (s t : State) (c : Nat) : Prop extends Happens { chans := fun i => i = c } s (duePeriod s c) t where
  full : FullStand (duePeriod s c) t

theorem dueEvent (s : State) (c : Nat) : DueEvent s (endEvent s (duePeriod s c)) c :=
  ⟨(duePeriod_does s c).happens s, endEvent_fullStand s _⟩

theorem DueEvent.tally (h : DueEvent s t c) : (t.chan c).tally =
    ((s.chan c).dueMoved (settlePeriod s c).2 (dueNext s c) (releasePassed s c).store.overload).tally :=
  (h.field rfl Channel.tally).trans (duePeriod_tally s c)

theorem DueEvent.counts (h : DueEvent s t c) :
    (t.chan c).dueIndex = (s.chan c).dueIndex + 1 ∧
      (t.chan c).remaining = (if (s.chan c).phase = .prime ∧ (releasePassed s c).store.overload = false then
        (s.chan c).remaining - 1 else (s.chan c).remaining) ∧
      (t.chan c).phase = (if (s.chan c).phase = .prime ∧ (releasePassed s c).store.overload = false ∧ (s.chan c).remaining ≤ 1
        then .sustain else (s.chan c).phase) := by
  obtain ⟨due, remaining, phase, -⟩ : _ ∧ _ ∧ _ ∧ _ := by simpa only [Channel.tally, Prod.mk.injEq] using h.tally
  exact ⟨due.trans (dueNext_period s c), remaining, phase⟩

/-- MISSING and what stands before the next due index, by how the period was settled (R89, log 15). -/
theorem DueEvent.settled (h : DueEvent s t c) : (t.chan c).missing = ((s.chan c).missing || (settlePeriod s c).2 != .shown) ∧
    (t.chan c).priorRecord = (if (settlePeriod s c).2 = .skipped then (s.chan c).priorRecord else some (s.chan c).dueIndex) ∧
    (t.chan c).priorShown = ((settlePeriod s c).2 == .shown) := by
  obtain ⟨-, -, -, missing, record, shown⟩ : _ ∧ _ ∧ _ ∧ _ ∧ _ ∧ _ := by
    simpa only [Channel.tally, Prod.mk.injEq] using h.tally
  exact ⟨missing, record, shown⟩

theorem DueEvent.shown (h : DueEvent s t c) (how : (settlePeriod s c).2 = .shown) : (t.chan c).missing = (s.chan c).missing ∧
    (t.chan c).priorRecord = some (s.chan c).dueIndex ∧ (t.chan c).priorShown = true := by
  have settled := h.settled
  rw [how] at settled
  simpa using settled

theorem DueEvent.missed (h : DueEvent s t c) (how : (settlePeriod s c).2 = .missed) : (t.chan c).missing = true ∧
    (t.chan c).priorRecord = some (s.chan c).dueIndex ∧ (t.chan c).priorShown = false := by
  obtain ⟨missing, record, shown⟩ := h.settled
  rw [how] at missing record shown
  exact ⟨missing.trans (Bool.or_true _), record, shown⟩

/-- What the settling writes stands among the outputs of the event. -/
theorem DueEvent.wrote (h : DueEvent s t c) {o : Output} (ho : o ∈ outputsSince s (settlePeriod s c).1) : o ∈ outputsSince s t :=
  drop_mem_of_prefix (settlePeriod_settled s c).follows.out ((duePeriod_after s c).frame.out.trans h.ends.out) ho

/-! ## While the course goes on, and at its end -/

theorem courseReached_of_change {v : Int} {q : PendingCourse} {n : Word32} (h : q.change = n) :
    courseReached v (some q) n = (q.speed, none) := if_pos h

theorem courseReached_of_later {v : Int} {o : Option PendingCourse} {n : Word32} (h : ∀ q, o = some q → q.change ≠ n) :
    courseReached v o n = (v, o) := by
  cases o with
  | none => rfl
  | some q => exact if_neg (h q rfl)

theorem DueEvent.goesOn (h : DueEvent s t c) (hs : (s.chan c).state = .running) (hd : (s.chan c).dueTime = some d) {e : Cursor}
    (hn : nextDue s c = some e) :
    (t.chan c).state = .running ∧ (t.chan c).dueTime = some (d + (s.chan c).period) ∧ (t.chan c).pos = e.pos ∧
      (t.chan c).edge = e.edge ∧ (t.chan c).atEdge = e.edge ∧
      (∀ q, (s.chan c).course = some q → q.change = (s.chan c).dueIndex + 1 →
        (t.chan c).speed = q.speed ∧ (t.chan c).course = none ∧
        Answered s t q.ticket.kind q.ticket.tag .ok 0 [item2s q.speed, item4 q.change.toNat]) ∧
      ((∀ q, (s.chan c).course = some q → q.change ≠ (s.chan c).dueIndex + 1) →
        (t.chan c).speed = (s.chan c).speed ∧ (t.chan c).course = (s.chan c).course) := by
  have next : dueNext s c = e := by unfold dueNext; rw [hn]; rfl
  have period : e.period = (s.chan c).dueIndex + 1 := next ▸ dueNext_period s c
  have kept := duePassed_kept s c
  rw [next, ← duePeriod_of_some hn] at kept
  have speed := h.field kept (·.speed)
  have course := h.field kept (·.course)
  simp only [Channel.dueMoved, period] at speed course
  refine ⟨h.state ?_ (by decide), (h.field kept (·.dueTime)).trans ?_, h.field kept (·.pos), h.field kept (·.edge),
    h.field kept (·.atEdge), fun q hq hc => ?_, fun later => ?_⟩
  · rw [duePeriod_of_some hn]
    exact duePassed_state hs
  · show (s.chan c).dueTime.map (· + (s.chan c).period) = _
    rw [hd]; rfl
  · rw [hq, courseReached_of_change hc] at speed course
    refine ⟨speed, course, h.answered ?_⟩
    rw [duePeriod_of_some hn]
    exact duePassed_handed hq hc
  · rw [courseReached_of_later later] at speed course
    exact ⟨speed, course⟩

theorem DueEvent.playEnds (h : DueEvent s t c) (hn : nextDue s c = none) :
    (t.chan c).state = .held ∧ (t.chan c).dueTime = none ∧ (t.chan c).base = some s.time.house ∧
      (t.chan c).edge = false ∧ (t.chan c).atEdge = false ∧ (t.chan c).course = none ∧
      (t.chan c).flags &&& ChanFlag.playEnd ≠ 0 ∧
      (t.chan c).pos = (if (courseOf s (s.chan c)).speedAt (s.chan c).dueIndex > 0 then 16 * ((s.chan c).lastFrame : Int)
        else 16 * ((s.chan c).inPoint : Int)) := by
  have kept := duePeriod_kept_of_none hn
  have chan := endPlay_chan (duePassed s c) c (endPosition (s.chan c) ((courseOf s (s.chan c)).speedAt (s.chan c).dueIndex))
  rw [← duePeriod_of_none hn] at chan
  have bit : ∀ f : BitVec 7, (f ||| ChanFlag.playEnd) &&& ChanFlag.playEnd ≠ 0 := by decide
  refine ⟨h.state (congrArg (·.state) chan) (by decide), h.field kept (·.dueTime), h.field kept (·.base), h.field kept (·.edge),
    h.field kept (·.atEdge), h.field kept (·.course), (h.ends.flags c).bit ?_, h.field kept (·.pos)⟩
  rw [congrArg (fun ch : Channel => ch.flags) chan]
  exact bit _

/-! ## The record of the period -/

theorem DueEvent.skipped (h : DueEvent s t c) (hr : (s.chan c).recordFrom (s.chan c).dueIndex = false)
    (hf : (s.ring c).free = 0) : (t.chan c).missing = true ∧ (t.chan c).priorRecord = (s.chan c).priorRecord ∧
      (t.chan c).priorShown = false ∧ (t.ring c).gap = min 65535 ((s.ring c).gap + 1) := by
  have full := settlePeriod_of_full hr hf
  have ring : (duePeriod s c).ring c = { s.ring c with gap := min Config.maxGap ((s.ring c).gap + 1) } := by
    rw [duePeriod_ring, full]
    exact (State.ring_modRing _ _ _ _).trans (if_pos rfl)
  have stands : t.ring c = (duePeriod s c).ring c := h.full c (by rw [ring]; exact hf)
  have settled := h.settled
  rw [full] at settled
  obtain ⟨missing, record, shown⟩ := settled
  refine ⟨missing.trans (Bool.or_true _), record, shown, ?_⟩
  rw [stands, ring]
  rfl

/-- The REPEAT of a period without a record stands in the next slot (R87, R88). -/
theorem DueEvent.again (h : DueEvent s t c) (hs : (s.chan c).state = .running) (hd : (s.chan c).dueTime = some d) {e : ListEntry}
    (how : settlePeriod s c = (writeRepeat s c e (s.chan c).due, .shown)) :
    .record (BitVec.ofNat 64 ((s.ring c).recordArea + 32 * (s.ring c).nextSlot))
      ⟨.again, .none, ((courseOf s (s.chan c)).next (s.chan c).due).isNone, (s.chan c).atEdge, shortOf s e, (s.chan c).clip,
        (s.ring c).gap, (s.chan c).dueIndex, frameOf (s.chan c).pos, 0, d % 4294967296⟩ ∈ outputsSince s t := by
  refine h.wrote ?_
  rw [how, ← periodRecord_due hs hd]
  exact writeNoData_record s c _

/-- The MISS of a period without a record stands in the next slot (R88). -/
theorem DueEvent.miss (h : DueEvent s t c) (hs : (s.chan c).state = .running) (hd : (s.chan c).dueTime = some d) {reason : MissReason}
    (how : settlePeriod s c = (writeMiss s c reason (s.chan c).due, .missed)) :
    .record (BitVec.ofNat 64 ((s.ring c).recordArea + 32 * (s.ring c).nextSlot))
      ⟨.miss, reason, ((courseOf s (s.chan c)).next (s.chan c).due).isNone, (s.chan c).atEdge, false, (s.chan c).clip,
        (s.ring c).gap, (s.chan c).dueIndex, frameOf (s.chan c).pos, 0, d % 4294967296⟩ ∈ outputsSince s t := by
  refine h.wrote ?_
  rw [how, ← periodRecord_due hs hd]
  exact writeNoData_record s c _

/-- A period settled by a record of its own with no transfer in flight is published at once (R94). -/
theorem DueEvent.produced (h : DueEvent s t c) (hr : (s.chan c).recordFrom (s.chan c).dueIndex = false) (hf : 0 < (s.ring c).free)
    (ht : (s.ring c).transfer = none) : .produceWord (BitVec.ofNat 64 ((s.ring c).recordArea + 32 * (s.ring c).slotCount))
      ((s.ring c).produce + 1) ∈ outputsSince s t := by
  refine h.wrote ?_
  cases he : (s.chan c).entryAt (s.chan c).dueIndex with
  | none =>
    rw [settlePeriod_of_none hr hf he]
    exact writeNoData_produces _ ht
  | some e =>
    rw [settlePeriod_of_entry hr hf he]
    split <;> exact writeNoData_produces _ ht

end

/-- Settles O48: the act of the due time is read off case by case, and the rest of its event leaves what the statement names. -/
theorem dueTimeMovesOn : Obligations.DueTimeMovesOn := by
  intro s c d hs hd hnow
  have h := dueEvent s c
  refine ⟨_, exec_dueTime hs hd hnow, h.frame, h.counts.1, fun e hn => h.goesOn hs hd hn, h.playEnds, ?_, fun hr => ?_,
    fun hr hf => h.skipped hr hf, fun last hr hf hlast => ?_⟩
  · rintro u rfl
    exact ⟨(releasePassed_overload s c).1, (releasePassed_overload s c).2, h.counts.2⟩
  · exact h.shown (congrArg Prod.snd (settlePeriod_of_record hr))
  · subst hlast
    refine ⟨fun e he begins shown bars lost => ?_, fun hm => ?_, h.produced hr hf⟩
    · have how := settlePeriod_again hr hf he (Channel.repeats_iff.2 ⟨begins, shown, bars, lost⟩)
      obtain ⟨missing, record, prior⟩ := h.shown (congrArg Prod.snd how)
      exact ⟨missing, record, prior, h.again hs hd how⟩
    · obtain ⟨reason, none, some, how⟩ := settlePeriod_missed hr hf fun e he => Channel.repeats_eq_false (hm e he)
      obtain ⟨missing, record, prior⟩ := h.missed (congrArg Prod.snd how)
      refine ⟨missing, record, prior, reason, none, fun e he => (some e he).trans ?_, h.miss hs hd how⟩
      cases e.status <;> rfl

end Sys2Proof.Machine

/-! SUPPORT. The ninth law (R47, R55, R70, R77) through the Channel Controller's acts. -/

namespace Sys2Proof.Machine

/-! ## A channel's place through a change of its record -/

/-- What the ninth law speaks of in a channel record. -/
def Channel.spot (ch : Channel) : ChanState × Nat × Nat × Int × Bool × Bool × Bool × Option PendingStart :=
  (ch.state, ch.inPoint, ch.lastFrame, ch.pos, ch.edge, ch.atEdge, ch.follow, ch.start)

namespace Channel.Placed
variable {a b : Channel}

theorem of_spot (h : a.Placed) (e : b.spot = a.spot) : b.Placed := by
  simp only [Channel.spot, Prod.mk.injEq] at e
  obtain ⟨state, inPoint, lastFrame, pos, edge, atEdge, follow, start⟩ := e
  refine ⟨?_, ?_, ?_, ?_, ?_⟩
  · rw [inPoint, lastFrame]; exact h.range
  · rw [state, inPoint, lastFrame, pos]; exact h.pos
  · rw [state, start]; exact h.start
  · rw [state, edge, atEdge]; exact h.edge
  · rw [lastFrame, pos, atEdge, follow]; exact h.atEdge

theorem of_bare (h : a.Placed) (e : b.bare = a.bare) : b.Placed := h.of_spot (congrArg Channel.spot e :)

/-- A channel with no start pending keeps its place without one. -/
theorem startless (h : a.Placed) : ({ a with start := none } : Channel).Placed := ⟨h.range, h.pos, nofun, h.edge, h.atEdge⟩

theorem courseless (h : a.Placed) : ({ a with course := none } : Channel).Placed := h.of_spot rfl

theorem sped (h : a.Placed) (v : Int) : ({ a with speed := v } : Channel).Placed := h.of_spot rfl

theorem restart (h : a.Placed) (k : Recompute) : (a.restart k).Placed := by
  cases k with
  | rebuild => exact h.of_spot rfl
  | cue | trim | afterRevoke => exact h

/-- The reset values of the binding group with no start pending: the place of a channel that is IDLE or FREE (R44). -/
theorem unbound {st : ChanState} (hst : st = .idle ∨ st = .free) (h : a.start = none) :
    ({ a.unbound with state := st } : Channel).Placed where
  range := Nat.le_refl _
  pos hf hi := absurd hst (not_or.2 ⟨hi, hf⟩)
  start hs := by rw [show ({ a.unbound with state := st } : Channel).start = a.start from rfl, h] at hs; cases hs
  edge := (Bool.and_false _).symm
  atEdge := nofun

/-- The place a bind gives (R47, R50). -/
theorem boundBy {r : ChanBindArgs} {length : Nat} (rate : Nat) (h : a.start = none)
    (range : r.inPoint ≤ chosenLast r.follow r.lastFrame length) : (a.boundBy r length rate).Placed where
  range := range
  pos _ hi := absurd rfl hi
  start hs := by rw [show (a.boundBy r length rate).start = a.start from rfl, h] at hs; cases hs
  edge := rfl
  atEdge := nofun

/-- Outside RUNNING a cue gives a place in range (R53). -/
theorem cued (h : a.Placed) (still : a.state ≠ .running) (position : Int) (q : CueRequest) (now : Nat) :
    ((a.recued (clampPosition a.inPoint a.lastFrame position)).cueing q now).Placed where
  range := h.range
  pos _ _ := clampPosition_range h.range position
  start _ := ⟨nofun, nofun⟩
  edge := h.edge_of_still still
  atEdge := nofun

/-- A start leaves the place, EDGE by whether the due index is at the live edge (R57, R70). -/
theorem started (h : a.Placed) (ready : a.state ≠ .free ∧ a.state ≠ .idle) (due : Nat) : (a.started due).Placed where
  range := h.range
  pos _ _ := h.pos ready.1 ready.2
  start _ := ⟨nofun, nofun⟩
  edge := (Bool.true_and _).symm
  atEdge := h.atEdge

/-- A hold from RUNNING leaves the place with EDGE fallen (R61). -/
theorem heldRunning (h : a.Placed) (running : a.state = .running) (now : Nat) : (a.stopped now).Placed where
  range := h.range
  pos _ _ := h.pos (by rw [running]; decide) (by rw [running]; decide)
  start _ := ⟨nofun, nofun⟩
  edge := rfl
  atEdge := h.atEdge

/-- A hold outside RUNNING leaves the place (R61). -/
theorem stilled (h : a.Placed) (ready : a.state ≠ .free ∧ a.state ≠ .idle) (still : a.state ≠ .running) (now : Nat) :
    (a.stilled now).Placed where
  range := h.range
  pos _ _ := h.pos ready.1 ready.2
  start := nofun
  edge := h.edge_of_still still
  atEdge := h.atEdge

/-- A due index that is no more at the live edge, on a channel that shows no EDGE (R66, R77). -/
theorem offEdge (h : a.Placed) (he : ¬(a.state = .running ∧ a.atEdge = true)) :
    ({ a with atEdge := false } : Channel).Placed where
  range := h.range
  pos := h.pos
  start := h.start
  edge := by
    show a.edge = (a.state == .running && false)
    rw [h.edge, Bool.and_false]
    simpa using he
  atEdge := nofun

end Channel.Placed

/-! ## Acts that keep the law -/

/-- An act that keeps the ninth law. -/
def KeepsPlaces (s t : State) : Prop := (∀ c, (s.chan c).Placed) → ∀ c, (t.chan c).Placed

namespace KeepsPlaces
variable {s t u : State}

theorem refl (s : State) : KeepsPlaces s s := id

theorem trans (a : KeepsPlaces s t) (b : KeepsPlaces t u) : KeepsPlaces s u := b ∘ a

theorem ite {p : Prop} [Decidable p] (a : KeepsPlaces s t) (b : KeepsPlaces s u) : KeepsPlaces s (if p then t else u) := by
  split <;> assumption

theorem foldl {α : Type} {f : State → α → State} (h : ∀ s a, KeepsPlaces s (f s a)) (l : List α) (s : State) :
    KeepsPlaces s (l.foldl f s) := by
  induction l generalizing s with
  | nil => exact refl s
  | cons a l ih => exact (h s a).trans (ih _)

/-- An act that writes no channel record. -/
theorem same (h : t.chans = s.chans) : KeepsPlaces s t := fun p c => by
  unfold State.chan
  rw [h]
  exact p c

/-- An act with a case that writes no channel record, as a refusal. -/
theorem refusedOr {p : Prop} [Decidable p] (h : t.chans = s.chans) (k : KeepsPlaces s u) : KeepsPlaces s (if p then t else u) :=
  (same h).ite k

theorem modChan {c : Nat} {f : Channel → Channel} (h : (s.chan c).Placed → (f (s.chan c)).Placed) :
    KeepsPlaces s (s.modChan c f) := fun p i => by
  rw [State.chan_modChan]
  split
  · exact h (p c)
  · exact p i

end KeepsPlaces

theorem ChanStands.placed {s t : State} {c : Nat} (h : ChanStands s t c) (p : (s.chan c).Placed) : (t.chan c).Placed :=
  p.of_kept h.1 h.2.1

section
variable {s t : State}

theorem Does.keepsPlaces {w : Touched} (d : Does w s t) (h : ∀ c, w.chans c → (s.chan c).Placed → (t.chan c).Placed) :
    KeepsPlaces s t := fun p c => by
  by_cases hc : w.chans c
  · exact h c hc (p c)
  · exact (d.frame.chans c hc).placed (p c)

/-- An act on one channel. -/
theorem Does.keepsPlace {w : Touched} {c : Nat} (d : Does w s t) (hw : ∀ i, w.chans i → i = c)
    (h : (s.chan c).Placed → (t.chan c).Placed) : KeepsPlaces s t :=
  d.keepsPlaces fun i hi => by rw [hw i hi]; exact h

/-- An act on no channel's course. -/
theorem Does.leavesPlaces {w : Touched} (d : Does w s t) (hw : ∀ i, ¬w.chans i) : KeepsPlaces s t :=
  d.keepsPlaces fun i hi => absurd hi (hw i)

theorem Follows.keepsPlaces (f : Follows s t) : KeepsPlaces s t := fun p c => (p c).of_kept (f.chans c) (f.state c)

theorem Ends.keepsPlaces (e : Ends s t) : KeepsPlaces s t := fun p c => (p c).of_kept (e.chans c) (e.state c)

theorem Handles.keepsPlaces (a : Handles s t) : KeepsPlaces s t := fun p c => (p c).of_bare (Channel.bare_of_still (a.chans c))

/-! ## Waiting answers, cues and starts -/

variable (s) (c : Nat)

theorem endStart_keeps (r : Result) : KeepsPlaces s (endStart s c r) :=
  (endStart_does (w := { time := true, chans := (· = c) }) s c r rfl rfl).keepsPlace (c := c) (fun _ => id) fun p => by
    rw [endStart_chan]; exact p.startless

variable {s} {c}

theorem cueTo_keeps (still : (s.chan c).state ≠ .running) (t : Ticket) (position : Int) : KeepsPlaces s (cueTo s c t position) :=
  (cueTo_does s c t position).keepsPlace (c := c) (fun _ => id) fun p =>
    (p.cued still position _ _).of_bare (cueTo_bare s c t position rfl)

/-- A start that fires finds its channel bound and in range (R57). -/
theorem fireStart_keeps (ready : (s.chan c).state ≠ .free ∧ (s.chan c).state ≠ .idle) (t : Ticket) (time : Nat)
    (noRef : Bool) : KeepsPlaces s (fireStart s c t time noRef) := by
  by_cases hl : (s.clip (s.chan c).clip).length = 0
  · rw [show fireStart s c t time noRef = s.refuseEmptyClip t from if_pos hl]
    exact .same rfl
  · have fires := fireStart_fires (c := c) t time noRef hl
    exact fires.does.keepsPlace (c := c) (fun _ => id) fun p => (p.started ready _).of_kept fires.kept (.inl fires.state)

theorem firePending_keeps (s : State) (c time : Nat) (noRef : Bool) : KeepsPlaces s (firePending s c time noRef) := by
  cases hq : (s.chan c).start with
  | none =>
    unfold firePending
    rw [hq]
    exact .same rfl
  | some q =>
    have chan := takeStart_chan s c
    have taken : KeepsPlaces s (takeStart s c) := (takeStart_does s c).keepsPlace (c := c) (fun _ => id) fun p => by
      rw [chan]
      exact p.startless
    rw [firePending_eq hq]
    intro p
    have ready := (p c).start (by rw [hq]; rfl)
    exact fireStart_keeps (by rw [chan]; exact ready) _ _ _ (taken p)

/-! ## Course changes -/

theorem courseChange_keeps {k : Recompute} {n : Word32} {f : Channel → Channel}
    (hf : ∀ ch : Channel, (f ch.kept).kept = (f ch).kept) (hs : ∀ ch : Channel, (f ch).state = ch.state)
    (h : (s.chan c).Placed → (f { s.chan c with course := none }).Placed) :
    KeepsPlaces s (courseChange s c k n f) := by
  obtain ⟨kept, state⟩ := courseChange_chan s c k n f hf hs
  refine (courseChange_does (w := { chans := (· = c) }) k n f rfl).keepsPlace (c := c) (fun _ => id) fun p =>
    ((h p).restart k).of_kept kept (.inl ?_)
  rw [state, Channel.restart_field _ k (·.state), hs]

/-- A course change that leaves the place. -/
theorem courseChange_keeps_of_spot {k : Recompute} {n : Word32} {f : Channel → Channel}
    (hf : ∀ ch : Channel, (f ch.kept).kept = (f ch).kept) (hp : ∀ ch : Channel, (f ch).spot = ch.spot) :
    KeepsPlaces s (courseChange s c k n f) :=
  courseChange_keeps hf (fun ch => congrArg Prod.fst (hp ch)) fun p => p.courseless.of_spot (hp _)

/-! ## The end of play, and changes of the clip (R65, R66, R76) -/

theorem endPlay_keeps {pos : Int} (h : 16 * ((s.chan c).inPoint : Int) ≤ pos ∧ pos ≤ 16 * ((s.chan c).lastFrame : Int) + 15) :
    KeepsPlaces s (endPlay s c pos) :=
  (endPlay_does (w := { chans := (· = c) }) s c pos rfl).keepsPlace (c := c) (fun _ => id) fun p => by
    rw [endPlay_chan]
    exact (p.stopped h).of_spot rfl

theorem recompute_keeps (s : State) (c : Nat) (k : Recompute) (n : Word32) : KeepsPlaces s (recompute s c k n) :=
  (recompute_follows s c k n).keepsPlaces

theorem revokeFrom_keeps (s : State) (c : Nat) (r : Word32) (b : Bool) : KeepsPlaces s (revokeFrom s c r b) :=
  (revokeFrom_does (w := {}) s c r b).leavesPlaces fun _ => id

theorem withRange_keeps (s : State) (c : Nat) {i l : Nat} (h : i ≤ l) : KeepsPlaces s (s.modChan c (fun ch => ch.withRange i l)) :=
  .modChan fun p => p.withRange h

theorem rangeAfter_le (ch : Channel) (length : Nat) : (rangeAfter ch length).1 ≤ (rangeAfter ch length).2 := by
  unfold rangeAfter
  split
  · exact Nat.le_refl _
  · exact Nat.min_le_right _ _

theorem rangeRunning_keeps (s : State) (c : Nat) {i l : Nat} (h : i ≤ l) : KeepsPlaces s (rangeRunning s c i l) := by
  have shown : ∀ u n, KeepsPlaces u (recompute (u.modChan c (fun ch => ch.withRange i l)) c .trim n) :=
    fun u n => (withRange_keeps u c h).trans (recompute_keeps _ _ _ _)
  unfold rangeRunning
  dsimp only
  split
  · exact (((decideRevoke_does (w := {}) _ _ _ _).leavesPlaces fun _ => id).trans (shown _ _)).trans (recompute_keeps _ _ _ _)
  · exact shown _ _

theorem rangeEnds_keeps (s : State) (c : Nat) {i l : Nat} (h : i ≤ l) : KeepsPlaces s (rangeEnds s c i l) := by
  have chan := State.chan_modChan_self (revokeFrom s c (s.chan c).dueIndex true) c (fun ch => ch.withRange i l)
  have ends := endPlay_keeps (c := c) (pos := 16 * (l : Int))
    (s := (revokeFrom s c (s.chan c).dueIndex true).modChan c (fun ch => ch.withRange i l)) (by
      rw [chan]
      show 16 * (i : Int) ≤ 16 * (l : Int) ∧ 16 * (l : Int) ≤ 16 * (l : Int) + 15
      omega)
  exact (((revokeFrom_keeps _ _ _ _).trans (withRange_keeps _ _ h)).trans ends).trans (recompute_keeps _ _ _ _)

theorem lengthChanged_keeps (n : Nat) (s : State) (c : Nat) : KeepsPlaces s (lengthChanged n s c) := by
  have range := rangeAfter_le (s.chan c) n
  unfold lengthChanged
  dsimp only
  split
  · exact (rangeEnds_keeps s c range).ite (rangeRunning_keeps s c range)
  · exact (withRange_keeps s c range).trans (recompute_keeps _ _ _ _)

theorem growthEnded_keeps (s : State) (c : Nat) : KeepsPlaces s (growthEnded s c) := by
  unfold growthEnded
  dsimp only
  refine (KeepsPlaces.refl s).ite ?_
  split
  · rename_i atEdge
    obtain ⟨kept, -⟩ := revokeFrom_kept s c (s.chan c).dueIndex true
    have inPoint : ((revokeFrom s c (s.chan c).dueIndex true).chan c).inPoint = (s.chan c).inPoint :=
      congrArg (fun ch => ch.inPoint) kept
    have last : ((revokeFrom s c (s.chan c).dueIndex true).chan c).lastFrame = (s.chan c).lastFrame :=
      congrArg (fun ch => ch.lastFrame) kept
    intro p
    have range := (p c).range
    refine recompute_keeps _ _ _ _ (endPlay_keeps ?_ (revokeFrom_keeps _ _ _ _ p))
    rw [inPoint, last]
    omega
  · rename_i off
    exact (KeepsPlaces.modChan fun p => p.offEdge off).trans (recompute_keeps _ _ _ _)

theorem growthBegan_keeps (s : State) (c : Nat) : KeepsPlaces s (growthBegan s c) :=
  (extendFor_follows c _ s).keepsPlaces.trans (.modChan fun p => p.of_spot rfl)

theorem amendClip_keeps (s : State) (a : ClipAmendArgs) : KeepsPlaces s (amendClip s a) := by
  have amended : KeepsPlaces s (amendLength s a) := .same rfl
  have length : KeepsPlaces s (lengthMet s a) := amended.ite (amended.trans (.foldl (lengthChanged_keeps _) _ _))
  have growth : KeepsPlaces s (growthMet s a) :=
    ((length.trans (.foldl growthBegan_keeps _ _)).ite length).trans (.same rfl)
  rw [amendClip_eq]
  exact (growth.trans (.foldl growthEnded_keeps _ _)).ite growth

/-! ## The binding -/

theorem forceUnbind_keeps (s : State) (c : Nat) : KeepsPlaces s (forceUnbind s c) := by
  refine (forceUnbind_does s c).keepsPlace (c := c) (fun _ => id) fun _ => ?_
  have quiet : ((endWaiting s c .aborted).chan c).start = none := by rw [endWaiting_chan]; rfl
  have revoked : ∀ u : State, (u.chan c).start = none → ∀ r, ((revokeFrom u c r false).chan c).start = none := fun u h r =>
    (congrArg (fun ch => ch.start) (revokeFrom_kept u c r false).1).trans h
  have released : ∀ (u : State) (v : Option Nat) (h : Nat), (u.chan c).start = none →
      ((lowerBind (releaseViewOpt (releaseList u c) v) h).chan c).start = none := fun u v h hu => by
    have list := (releaseList_stays u c c).field (·.start)
    show (tget _ (releaseViewOpt (releaseList u c) v).chans c).start = none
    rw [(releaseViewOpt_beside _ v).1]
    exact list.trans hu
  unfold forceUnbind
  dsimp only
  rw [State.chan_modChan_self]
  refine (Channel.Placed.unbound (.inl rfl) (released _ _ _ ?_)).of_spot rfl
  split
  · exact revoked _ quiet _
  · exact quiet

theorem closeChannel_keeps (s : State) (c : Nat) (t : Ticket) : KeepsPlaces s (closeChannel s c t) := by
  have closed := closeChannel_unbinds s c t
  refine closed.does.keepsPlace (c := c) (fun _ => id) fun _ => Channel.Placed.of_bare ?_ closed.chan
  exact (Channel.Placed.unbound (a := (s.chan c).quiet) (.inr rfl) rfl).of_spot rfl

theorem bindChannel_keeps {a : ChanBindArgs} (range : a.inPoint ≤ chosenLast a.follow a.lastFrame (s.clip a.clip).length) :
    KeepsPlaces s (bindChannel s a) := by
  have binds := bindChannel_binds s a
  exact binds.does.keepsPlace (c := a.channel) (fun _ => id) fun _ => (Channel.Placed.boundBy _ rfl range).of_bare binds.chan

/-- The bounds of R47 that a request's checks leave. -/
theorem range_of_boundsFault {follow : Bool} {i l length p q : Nat} (h : boundsFault s follow i l length p q = none) :
    i ≤ chosenLast follow l length := by
  by_contra hn
  unfold boundsFault at h
  rw [if_pos (Nat.lt_of_not_le hn)] at h
  cases h

theorem setOptions_keeps {a : ChanOptionsArgs} {l : Nat} (range : a.inPoint ≤ l) : KeepsPlaces s (setOptions s a l) := by
  have margin : KeepsPlaces s (s.modChan a.channel (Channel.withMargin a)) :=
    .modChan fun p => p.of_spot rfl
  unfold setOptions
  dsimp only
  refine KeepsPlaces.ite (margin.ite (margin.trans (courseChange_keeps (fun _ => rfl) (fun _ => rfl) fun p => ?_)))
    ((KeepsPlaces.modChan fun p => p.withOptions range).trans (recompute_keeps _ _ _ _))
  exact p.courseless.withOptions range

end

end Sys2Proof.Machine

/-! SUPPORT. The ninth law through every request at its owner. -/

namespace Sys2Proof.Machine

namespace KeepsPlaces
variable (s : State) (t : Ticket)

theorem reply (r : Result) (is : List Item) : KeepsPlaces s (s.reply t r is) := .same rfl
theorem refuse (r : Result) : KeepsPlaces s (s.refuse t r) := .same rfl
theorem emit (o : Output) : KeepsPlaces s (s.emit o) := .same rfl
theorem modLink (m : Nat) (f : Link → Link) : KeepsPlaces s (s.modLink m f) := .same rfl

theorem refuseOpt (o : Option Ticket) (r : Result) : KeepsPlaces s (s.refuseOpt o r) := by
  cases o with
  | none => exact refl s
  | some t => exact refuse s t r

/-- A further act, under a condition. -/
theorem when {s u : State} {p : Prop} [Decidable p] {f : State → State} (h : KeepsPlaces s u) (hf : ∀ x, KeepsPlaces x (f x)) :
    KeepsPlaces s (if p then f u else u) := (h.trans (hf u)).ite h

end KeepsPlaces

section
variable (s : State)

/-! ## Group writes -/

theorem handOff_keeps (h g old : Nat) : KeepsPlaces s (handOff s h g old) :=
  (handOff_does (w := { pins := true }) s h g old rfl).leavesPlaces fun _ => id

theorem writeGroup_keeps (h g n : Nat) (v : GroupSlot) : KeepsPlaces s (writeGroup s h g n v) :=
  KeepsPlaces.trans (t := slotWritten s h g n v) (.same rfl) (handOff_keeps _ h g _)

theorem endFetch_keeps (f : Fetch) (list : Option (List Byte)) : KeepsPlaces s (endFetch s f list) := by
  have close : KeepsPlaces s (closeFetch s f) := .same rfl
  unfold endFetch fillGroup
  dsimp only
  split
  · exact close.trans (.reply _ _ _ _)
  · refine close.trans ?_
    split
    · exact .refuse _ _ _
    · exact (writeGroup_keeps _ _ _ _ _).trans (.reply _ _ _ _)

theorem startFetch_keeps (a : GroupListArgs) (t : Ticket) : KeepsPlaces s (startFetch s a t) := by
  have aside : KeepsPlaces s (setAside s (fetchOf s a t)) := .same rfl
  rw [startFetch_eq]
  exact (aside.trans (endFetch_keeps _ _ _)).ite (aside.trans (.emit _ _))

/-! ## Members and volumes -/

theorem failTags_keeps (m : Nat) : KeepsPlaces s (failTags s m) :=
  .foldl (fun s t => (KeepsPlaces.modLink s m _).trans (readEnded_follows _ m t .lost).keepsPlaces) _ s

theorem setMember_keeps (m : Nat) (k : MemberState) : KeepsPlaces s (setMember s m k) := by
  have noted : ∀ u, KeepsPlaces u (noteMember u) := fun u => .same rfl
  unfold setMember
  dsimp only
  exact ((((KeepsPlaces.modLink s m _).when (fun u => (leaveOnline_follows u m).keepsPlaces)).when
    (fun u => failTags_keeps u m)).when (fun u => (memberOnline_follows u).keepsPlaces)).trans (noted _)

theorem endHold_keeps (m : Nat) (r : Result) : KeepsPlaces s (endHold s m r) :=
  (KeepsPlaces.refuseOpt _ _ _).trans (.modLink _ _ _)

theorem dissolve_keeps (v : Nat) : KeepsPlaces s (dissolve s v) := by
  have gone : KeepsPlaces s (forgetVolume (s.setVolume v Volume.initial) v) := .same rfl
  exact gone.trans (.foldl (fun s m => (KeepsPlaces.modLink s m _).trans (setMember_keeps _ m _)) _ _)

theorem defineVolume_keeps (a : VolumeDefineArgs) : KeepsPlaces s (defineVolume s a) := by
  have set : ∀ u : State, KeepsPlaces u (u.setVolume a.volume (volumeOf a)) := fun u => .same rfl
  have enlist : ∀ u x, KeepsPlaces u (enlistMember a.volume u x) := fun u x =>
    (KeepsPlaces.modLink u x.1 _).trans (setMember_keeps _ x.1 _)
  exact (((dissolve_keeps s a.volume).ite (.refl s)).trans (set _)).trans (.foldl enlist _ _)

/-! ## SERVICE_CLEAR -/

theorem freeClip_keeps (h : Nat) : KeepsPlaces s (freeClip s h) := .same rfl

theorem clearMap_keeps : KeepsPlaces s (clearMap s) := by
  have set : ∀ (u : State) h x, KeepsPlaces u (u.setClip h x) := fun u h x => .same rfl
  exact .foldl (fun s c => ((set s _ _).trans (freeClip_keeps _ _)).ite (set s _ _)) _ s

/-- With every channel FREE and unbound the law holds of itself (R44, R71). -/
theorem clearBlocks_keeps : KeepsPlaces s (clearBlocks s) := by
  have channels : KeepsPlaces s (clearChannels s) := fun _ _ => Channel.Placed.initial
  have rings : ∀ u, KeepsPlaces u (clearRings u) := fun u => .same rfl
  have store : ∀ u, KeepsPlaces u (clearSched (clearStore (clearViews u))) := fun u => .same rfl
  have links : ∀ u, KeepsPlaces u ((List.range Config.members).foldl clearLink u) := fun u =>
    .foldl (fun s m => ((setMember_keeps _ _ _).trans (endHold_keeps _ _ _)).ite (.refl s)) _ u
  have waits : ∀ u, KeepsPlaces u (clearWaits u) := fun u => .same rfl
  exact ((((channels.trans (rings _)).trans (clearMap_keeps _)).trans (store _)).trans (links _)).trans (waits _)

theorem answerClear_keeps : KeepsPlaces s (answerClear s) := by
  unfold answerClear
  split
  · exact .refl s
  · exact (KeepsPlaces.refl s).ite (.same rfl)

/-! ## Requests of the Request Port and the Frame Map -/

variable (t : Ticket)

theorem doNoticeMode_keeps (a : NoticeModeArgs) : KeepsPlaces s (doNoticeMode a t s) := by
  have port : ∀ (u : State) (x : Port), KeepsPlaces u { u with port := x } := fun u x => .same rfl
  have flags : ∀ (u : State) c f, KeepsPlaces u (u.setChanFlag c f) := fun u c f => .modChan fun p => p.of_spot rfl
  have one : ∀ m1 m2 u c, KeepsPlaces u (setChanNotices a.enables m1 m2 u c) := fun m1 m2 u c => (port u _).trans (flags _ c _)
  have set : ∀ m1 m2, KeepsPlaces s (setNotices s a m1 m2 t) := fun m1 m2 =>
    KeepsPlaces.refusedOr rfl ((KeepsPlaces.foldl (one m1 m2) _ s).trans (.reply _ _ _ _))
  unfold doNoticeMode
  refine KeepsPlaces.refusedOr rfl ?_
  split
  · exact .same rfl
  · exact .same rfl
  · exact .same rfl
  · exact set _ _

theorem doNoticeTake_keeps (a : NoticeTakeArgs) : KeepsPlaces s (doNoticeTake a t s) := by
  have taken : KeepsPlaces s (takeChanFlags s a.scope a.mask) := .modChan fun p => p.of_spot rfl
  exact KeepsPlaces.refusedOr rfl (.refusedOr rfl (taken.trans (.reply _ _ _ _)))

theorem doClipMake_keeps (a : ClipMakeArgs) : KeepsPlaces s (doClipMake a t s) := by
  unfold doClipMake
  refine KeepsPlaces.refusedOr rfl (.refusedOr rfl ?_)
  split
  · exact .same rfl
  · exact .same rfl

theorem doClipAmend_keeps (a : ClipAmendArgs) : KeepsPlaces s (doClipAmend a t s) :=
  KeepsPlaces.refusedOr rfl (.refusedOr rfl (.refusedOr rfl ((amendClip_keeps s a).trans (.reply _ _ _ _))))

theorem doGroupFix_keeps (a : GroupFixArgs) : KeepsPlaces s (doGroupFix a t s) := by
  unfold doGroupFix
  split
  · exact .same rfl
  · refine KeepsPlaces.refusedOr rfl (.refusedOr rfl (.refusedOr rfl (.refusedOr rfl ?_)))
    split
    · exact .same rfl
    · exact KeepsPlaces.refusedOr rfl ((writeGroup_keeps _ _ _ _ _).trans (.reply _ _ _ _))

theorem doGroupList_keeps (a : GroupListArgs) : KeepsPlaces s (doGroupList a t s) := by
  unfold doGroupList
  split
  · exact .same rfl
  · exact KeepsPlaces.refusedOr rfl (.refusedOr rfl (.refusedOr rfl (.refusedOr rfl (startFetch_keeps s a t))))

theorem doGroupDrop_keeps (a : GroupDropArgs) : KeepsPlaces s (doGroupDrop a t s) := by
  have write : KeepsPlaces s (writeSlot s a.clip a.group .empty) := .same rfl
  unfold doGroupDrop
  split
  · exact .same rfl
  · exact KeepsPlaces.refusedOr rfl (.refusedOr rfl ((write.trans (handOff_keeps _ _ _ _)).trans (.reply _ _ _ _)))

theorem doClipRetire_keeps (a : ClipRetireArgs) : KeepsPlaces s (doClipRetire a t s) := by
  have withdraw : KeepsPlaces s (withdrawClip s a.clip t) :=
    ((KeepsPlaces.foldl forceUnbind_keeps _ s).trans (freeClip_keeps _ _)).trans (.reply _ _ _ _)
  have retire : KeepsPlaces s (retireClip s a.clip t) := KeepsPlaces.refusedOr rfl (.same rfl)
  exact KeepsPlaces.refusedOr rfl (withdraw.ite retire)

theorem doViewDefine_keeps (a : ViewDefineArgs) : KeepsPlaces s (doViewDefine a t s) := by
  unfold doViewDefine
  refine KeepsPlaces.refusedOr rfl (.refusedOr rfl (.refusedOr rfl ?_))
  split
  · exact .same rfl
  · exact .same rfl

/-! ## Requests of the Channel Controller -/

theorem doChanOpen_keeps (a : ChanOpenArgs) : KeepsPlaces s (doChanOpen a t s) := by
  have set : KeepsPlaces s (s.setChan a.channel (openedChannel a)) := fun p i => by
    rw [State.chan_setChan]
    split
    · exact ⟨Nat.le_refl _, fun _ h => absurd rfl h, nofun, rfl, nofun⟩
    · exact p i
  exact KeepsPlaces.refusedOr rfl (.refusedOr rfl (.refusedOr rfl (.refusedOr rfl (.refusedOr rfl
    (set.trans (.same rfl))))))

theorem doChanBind_keeps (a : ChanBindArgs) : KeepsPlaces s (doChanBind a t s) := by
  unfold doChanBind
  refine KeepsPlaces.refusedOr rfl (.refusedOr rfl (.refusedOr rfl ?_))
  split
  · exact .same rfl
  · refine KeepsPlaces.refusedOr rfl ?_
    split
    · exact .same rfl
    · rename_i bounds
      exact (bindChannel_keeps (range_of_boundsFault bounds)).trans (.reply _ _ _ _)

theorem doChanOptions_keeps (a : ChanOptionsArgs) : KeepsPlaces s (doChanOptions a t s) := by
  unfold doChanOptions
  refine KeepsPlaces.refusedOr rfl (.refusedOr rfl (.refusedOr rfl ?_))
  split
  · exact .same rfl
  · rename_i bounds
    exact (setOptions_keeps (range_of_boundsFault bounds)).trans (.reply _ _ _ _)

theorem doChanDepth_keeps (a : ChanDepthArgs) : KeepsPlaces s (doChanDepth a t s) :=
  KeepsPlaces.refusedOr rfl ((KeepsPlaces.modChan fun p => p.of_spot rfl).trans (.reply _ _ _ _))

theorem doChanCue_keeps (a : PositionArgs) : KeepsPlaces s (doChanCue a t s) := by
  unfold doChanCue
  refine KeepsPlaces.refusedOr rfl ?_
  split
  · exact .same rfl
  · rename_i good
    exact KeepsPlaces.refusedOr rfl (cueTo_keeps (fun h => good (.inr h)) _ _)

theorem jumpRunning_keeps (c : Nat) (position : Int) : KeepsPlaces s (jumpRunning s c t position) := by
  have jump := courseChange_keeps (s := s) (c := c) (k := .rebuild) (n := (s.chan c).dueIndex)
    (f := Channel.jumped (clampPosition (s.chan c).inPoint (s.chan c).lastFrame position)) (fun _ => rfl) (fun _ => rfl)
    fun p => p.courseless.repositioned (clampPosition_range p.range position)
  exact jump.trans (.reply _ _ _ _)

theorem doChanJump_keeps (a : PositionArgs) : KeepsPlaces s (doChanJump a t s) := by
  unfold doChanJump
  refine KeepsPlaces.refusedOr rfl (.refusedOr rfl (.refusedOr rfl ?_))
  split
  · exact jumpRunning_keeps _ _ _ _
  · rename_i still
    exact cueTo_keeps still _ _

/-- A start takes a CUEING, CUED or HELD channel (R55). -/
theorem startAs_keeps {s : State} {c : Nat} (ready : (s.chan c).state ≠ .free ∧ (s.chan c).state ≠ .idle) (ask : StartAsk)
    (time : Nat) (t : Ticket) : KeepsPlaces s (startAs s c ask time t) := by
  have pends : ∀ f, KeepsPlaces s (setStart s c f t) := fun f =>
    .modChan fun p => ⟨p.range, p.pos, fun _ => ready, p.edge, p.atEdge⟩
  cases ask with
  | now => exact fireStart_keeps ready _ _ _
  | atTime => exact (fireStart_keeps ready _ _ _).ite (pends _)
  | atReference => exact (pends _).trans (.same rfl)

theorem doChanStart_keeps (a : ChanStartArgs) : KeepsPlaces s (doChanStart a t s) := by
  cases hb : badChannel s a.channel with
  | true => rw [show doChanStart a t s = s.refuse t .badHandle from if_pos hb]; exact .same rfl
  | false =>
    by_cases hs : (s.chan a.channel).state = .cueing ∨ (s.chan a.channel).state = .cued ∨ (s.chan a.channel).state = .held
    · have ready : ((beforeStart s a.channel).chan a.channel).state ≠ .free ∧
          ((beforeStart s a.channel).chan a.channel).state ≠ .idle := by
        rcases beforeStart_state hs with h | h <;> rw [h] <;> decide
      have before : KeepsPlaces s (beforeStart s a.channel) :=
        (endStart_keeps s a.channel .superseded).trans (cutIfCueing_follows _ _).keepsPlaces
      cases ha : startAsk a.form (s.chan a.channel).alignDefault with
      | none => unfold doChanStart; dsimp only; rw [ha]; exact KeepsPlaces.refusedOr rfl (.refusedOr rfl (.same rfl))
      | some ask =>
        by_cases hl : (s.clip (s.chan a.channel).clip).length = 0
        · unfold doChanStart; dsimp only; rw [ha]; dsimp only; rw [if_pos hl]
          exact KeepsPlaces.refusedOr rfl (.refusedOr rfl (.same rfl))
        · rw [doChanStart_ok t hb hs hl ha]
          exact before.trans (startAs_keeps ready _ _ _)
    · have refused : (s.chan a.channel).state = .idle ∨ (s.chan a.channel).state = .running := by
        have free : (s.chan a.channel).state ≠ .free := fun h => by
          rw [badChannel_eq_true.2 (.inr h)] at hb; cases hb
        revert hs free
        cases (s.chan a.channel).state <;> simp
      unfold doChanStart
      dsimp only
      rw [if_neg (by rw [hb]; decide), if_pos refused]
      exact .same rfl

theorem holdRunning_keeps {s : State} {c : Nat} (running : (s.chan c).state = .running) : KeepsPlaces s (holdRunning s c) := by
  obtain ⟨state, kept⟩ := holdRunning_kept s c
  exact (holdRunning_does s c).keepsPlace (c := c) (fun _ => id) fun p =>
    (p.courseless.heldRunning running _).of_kept kept (.inl state)

theorem doChanHold_keeps (c : Nat) : KeepsPlaces s (doChanHold c t s) := by
  cases hb : badChannel s c with
  | true => rw [show doChanHold c t s = s.refuse t .badHandle from if_pos hb]; exact .same rfl
  | false =>
    have free : (s.chan c).state ≠ .free := fun h => by rw [badChannel_eq_true.2 (.inr h)] at hb; cases hb
    by_cases idle : (s.chan c).state = .idle
    · rw [show doChanHold c t s = s.refuse t .badState from (if_neg (by rw [hb]; decide)).trans (if_pos idle)]; exact .same rfl
    · rw [doChanHold_ok t hb idle rfl]
      refine KeepsPlaces.trans ?_ (.reply _ _ _ _)
      split
      · rename_i running
        exact holdRunning_keeps running
      · rename_i still
        exact (holdStill_does s c).keepsPlace (c := c) (fun _ => id) fun p => by
          rw [holdStill_chan]; exact p.stilled ⟨free, idle⟩ still _

theorem speedRunning_keeps (c : Nat) (v : Int) (apply : Option Nat) : KeepsPlaces s (speedRunning s c t v apply) := by
  have now : ∀ k n, KeepsPlaces s (courseChange s c k n (fun ch => { ch with speed := v })) := fun k n =>
    courseChange_keeps_of_spot (f := fun ch => { ch with speed := v }) (fun _ => rfl) fun _ => rfl
  have later : ∀ k n q, KeepsPlaces s (courseChange s c k n (fun ch => { ch with course := some q })) := fun k n q =>
    courseChange_keeps_of_spot (f := fun ch => { ch with course := some q }) (fun _ => rfl) fun _ => rfl
  unfold speedRunning
  dsimp only
  exact ((KeepsPlaces.reply _ _ _ _).ite ((now _ _).trans (.reply _ _ _ _))).ite (later _ _ _)

theorem speedStill_keeps (c : Nat) (v : Int) : KeepsPlaces s (speedStill s c v) := by
  have stored : ∀ k, KeepsPlaces s (s.modChan c (fun ch => ({ ch with speed := v } : Channel).restart k)) := fun k =>
    .modChan fun p => (p.sped v).restart k
  exact (stored _).trans (recompute_keeps _ _ _ _)

theorem doChanSpeed_keeps (a : ChanSpeedArgs) : KeepsPlaces s (doChanSpeed a t s) := by
  unfold doChanSpeed
  refine KeepsPlaces.refusedOr rfl ?_
  split
  · exact speedRunning_keeps s t _ _ _
  · exact (KeepsPlaces.modChan fun p => p.of_spot rfl).trans (.reply _ _ _ _)
  · exact (speedStill_keeps s _ _).trans (.reply _ _ _ _)

/-! ## Requests of the other blocks -/

theorem doPinSet_keeps (a : PinSetArgs) : KeepsPlaces s (doPinSet a t s) := by
  have set : ∀ p, KeepsPlaces s (setPinRange s a p) := fun p =>
    KeepsPlaces.trans (t := (claimView s a.view).setPin p ⟨.full, a.clip, a.view, a.first, a.count, a.count, []⟩) (.same rfl)
      (coverFrames_handles _ _ _).keepsPlaces
  unfold doPinSet
  refine KeepsPlaces.refusedOr rfl (.refusedOr rfl (.refusedOr rfl (.refusedOr rfl ?_)))
  split
  · exact .same rfl
  · exact KeepsPlaces.refusedOr rfl (.refusedOr rfl ((set _).trans (.reply _ _ _ _)))

theorem doPinDrop_keeps (p : Nat) : KeepsPlaces s (doPinDrop p t s) := by
  have drop : KeepsPlaces s (dropPin s p) := (uncover_handles s p _).keepsPlaces.trans (.same rfl)
  exact KeepsPlaces.refusedOr rfl (drop.trans (.reply _ _ _ _))

theorem doVolumeDefine_keeps (a : VolumeDefineArgs) : KeepsPlaces s (doVolumeDefine a t s) := by
  unfold doVolumeDefine
  dsimp only
  split
  · exact .same rfl
  · refine KeepsPlaces.refusedOr rfl ?_
    split
    · exact .same rfl
    · exact KeepsPlaces.refusedOr rfl ((defineVolume_keeps s a).trans (.reply _ _ _ _))

theorem doVolumeDissolve_keeps (v : Nat) : KeepsPlaces s (doVolumeDissolve v t s) :=
  KeepsPlaces.refusedOr rfl (.refusedOr rfl (.refusedOr rfl ((dissolve_keeps s v).trans (.reply _ _ _ _))))

theorem doMemberHold_keeps (m : Nat) : KeepsPlaces s (doMemberHold m t s) := by
  have hold : KeepsPlaces s (holdMember s m t) :=
    (((KeepsPlaces.modLink _ _ _).trans (setMember_keeps _ _ _)).trans (.reply _ _ _ _)).ite
      (((KeepsPlaces.modLink _ _ _).trans (.modLink _ _ _)).trans (setMember_keeps _ _ _))
  exact KeepsPlaces.refusedOr rfl (.refusedOr rfl (.refusedOr rfl (.refusedOr rfl hold)))

theorem doMemberRelease_keeps (m : Nat) : KeepsPlaces s (doMemberRelease m t s) :=
  KeepsPlaces.refusedOr rfl (KeepsPlaces.ite (.same rfl)
    (((setMember_keeps _ _ _).trans (endHold_keeps _ _ _)).trans (.reply _ _ _ _)))

/-- Every owner's act keeps the ninth law. -/
theorem ownerAct_keeps (r : Request) : KeepsPlaces s (ownerAct r t s) := by
  cases r with
  | noticeMode a => exact doNoticeMode_keeps s t a
  | noticeTake a => exact doNoticeTake_keeps s t a
  | serviceClear =>
    have wait : ∀ (u : State) (w : Option ClearWait), KeepsPlaces u { u with port := { u.port with clearWait := w } } :=
      fun u w => .same rfl
    show KeepsPlaces s (doServiceClear t s)
    unfold doServiceClear
    exact ((clearBlocks_keeps s).trans (wait _ _)).trans (answerClear_keeps _)
  | clipMake a => exact doClipMake_keeps s t a
  | clipAmend a => exact doClipAmend_keeps s t a
  | groupFix a => exact doGroupFix_keeps s t a
  | groupList a => exact doGroupList_keeps s t a
  | groupDrop a => exact doGroupDrop_keeps s t a
  | clipRetire a => exact doClipRetire_keeps s t a
  | clipAsk c => exact KeepsPlaces.refusedOr rfl (.same rfl)
  | frameAsk a => exact KeepsPlaces.refusedOr rfl (.same rfl)
  | viewDefine a => exact doViewDefine_keeps s t a
  | chanOpen a => exact doChanOpen_keeps s t a
  | chanBind a => exact doChanBind_keeps s t a
  | chanOptions a => exact doChanOptions_keeps s t a
  | chanDepth a => exact doChanDepth_keeps s t a
  | chanCue a => exact doChanCue_keeps s t a
  | chanStart a => exact doChanStart_keeps s t a
  | chanHold c => exact doChanHold_keeps s t c
  | chanSpeed a => exact doChanSpeed_keeps s t a
  | chanJump a => exact doChanJump_keeps s t a
  | chanClose c => exact KeepsPlaces.refusedOr rfl (closeChannel_keeps s c t)
  | chanAsk a => exact KeepsPlaces.refusedOr rfl (.same rfl)
  | slotReturn a => exact KeepsPlaces.refusedOr rfl (.same rfl)
  | pinSet a => exact doPinSet_keeps s t a
  | pinDrop p => exact doPinDrop_keeps s t p
  | storeAsk a => exact KeepsPlaces.refusedOr rfl (.same rfl)
  | volumeDefine a => exact doVolumeDefine_keeps s t a
  | volumeDissolve v => exact doVolumeDissolve_keeps s t v
  | memberHold m => exact doMemberHold_keeps s t m
  | memberRelease m => exact doMemberRelease_keeps s t m
  | memberReturn m => exact KeepsPlaces.refusedOr rfl (.refusedOr rfl (.same rfl))
  | memberAsk m => exact KeepsPlaces.refusedOr rfl (.same rfl)
  | calibrate p => exact KeepsPlaces.refusedOr rfl (.refusedOr rfl (.same rfl))
  | timeAsk => exact .same rfl

end

end Sys2Proof.Machine

/-! SUPPORT. `PositionsStayInRange` (R47, R60, R70, R74 to R77): the ninth law through every event, and each next position. -/

namespace Sys2Proof.Machine

section
variable (s : State)

/-! ## DUE_TIME -/

/-- A due index that has moved on under its channel's own course is in range (R74 to R77). -/
theorem Channel.Placed.dueMoved {s : State} {c : Nat} {e : Cursor} (p : (s.chan c).Placed) (hs : (s.chan c).state = .running)
    (hn : nextDue s c = some e) (how : Settled) (overload : Bool) : ((s.chan c).dueMoved how e overload).Placed :=
  (p.moveTo (b := s.chan c) hs rfl hn).of_spot rfl

theorem endPosition_range (ch : Channel) (v : Int) (range : ch.inPoint ≤ ch.lastFrame) :
    16 * (ch.inPoint : Int) ≤ endPosition ch v ∧ endPosition ch v ≤ 16 * (ch.lastFrame : Int) + 15 := by
  unfold endPosition
  split <;> omega

theorem duePeriod_keeps {s : State} {c : Nat} (hs : (s.chan c).state = .running) : KeepsPlaces s (duePeriod s c) := by
  refine (duePeriod_does s c).keepsPlace (c := c) (fun _ => id) fun p => ?_
  cases hn : nextDue s c with
  | some e =>
    have next : dueNext s c = e := by unfold dueNext; rw [hn]; rfl
    have kept := duePassed_kept s c
    rw [next] at kept
    rw [duePeriod_of_some hn]
    exact (p.dueMoved hs hn _ _).of_kept kept (.inl ((duePassed_state hs).trans hs.symm))
  | none =>
    have kept := duePeriod_kept_of_none hn
    have chan := endPlay_chan (duePassed s c) c (endPosition (s.chan c) ((courseOf s (s.chan c)).speedAt (s.chan c).dueIndex))
    rw [← duePeriod_of_none hn] at chan
    have held : ((duePeriod s c).chan c).state = .held := congrArg (fun ch : Channel => ch.state) chan
    generalize hq : endPosition (s.chan c) ((courseOf s (s.chan c)).speedAt (s.chan c).dueIndex) = q at kept
    have stopped := p.stopped (hq ▸ endPosition_range (s.chan c) _ p.range)
    have ended : ∀ how e o now, ({ ((s.chan c).dueMoved how e o).dueEnded q now with state := .held } : Channel).Placed :=
      fun how e o now => stopped.of_spot rfl
    exact (ended _ _ _ _).of_kept kept (.inl held)

/-! ## TRANSFER_END -/

theorem endTransfer_keeps (c : Nat) : KeepsPlaces s (endTransfer s c) := by
  have held : ∀ u id, KeepsPlaces u (releaseHold u id) := fun u id => (releaseHold_follows u id).keepsPlaces
  have finished : ∀ u x, KeepsPlaces u (finishTransfer u c x) := fun u x => by
    have begun : KeepsPlaces u ((u.emit (.record ((u.ring c).recordAddress x.slot) x.record)).setRing c
      { u.ring c with transfer := none }) := .same rfl
    exact ((begun.trans (Follows.times _ (publishOne_follows c) _ _).keepsPlaces).trans (held _ _)).trans
      (.modChan fun p => p.of_spot rfl)
  have dropped : ∀ u, KeepsPlaces u (dropRing u c) := fun u => by
    have ring : KeepsPlaces u (u.setRing c Ring.initial) := .same rfl
    exact (ring.trans (.refuseOpt _ _ _)).trans (.modChan fun p => p.of_spot rfl)
  have closed : ∀ u x, KeepsPlaces u (finishClosing u c x) := fun u x => by
    have ring : KeepsPlaces u (u.modRing c (fun r => { r with transfer := none })) := .same rfl
    exact ((ring.trans (held _ _)).trans (dropped _)).trans (answerClear_keeps _)
  unfold endTransfer
  split
  · exact .refl s
  · exact ((KeepsPlaces.emit s _).trans (closed _ _)).ite ((KeepsPlaces.emit s _).trans (finished _ _))

/-! ## Links -/

theorem endDrain_keeps (m : Nat) : KeepsPlaces s (endDrain s m) := by
  have answered : ∀ u : State, KeepsPlaces u (match (u.link m).hold with
    | some t => u.reply t .ok (holdItems (u.link m))
    | none => u) := fun u => by
      split
      · exact .reply _ _ _ _
      · exact .refl u
  exact ((setMember_keeps s m _).trans (answered _)).trans (.modLink _ _ _)

theorem failMember_keeps (m : Nat) : KeepsPlaces s (failMember s m) := (setMember_keeps s m _).trans (endHold_keeps _ m _)

theorem judgeMember_keeps (m : Nat) : KeepsPlaces s (judgeMember s m) :=
  (failMember_keeps s m).ite ((endDrain_keeps s m).ite (.refl s))

theorem readEnded_keeps (m t : Nat) (v : TagState) (how : ReadEnd) : KeepsPlaces s (readEnded (setTag s m t v) m t how) :=
  (KeepsPlaces.modLink s m _).trans (readEnded_follows _ m t how).keepsPlaces

theorem takeDone_keeps (m : Nat) (d : DoneMsg) : KeepsPlaces s (takeDone s m d) := by
  unfold takeDone
  split
  · exact .refl s
  · exact .modLink _ _ _
  · exact ((readEnded_keeps s m _ _ _).trans (.modLink _ _ _)).trans (judgeMember_keeps _ m)

theorem expireTag_keeps (m t : Nat) : KeepsPlaces s (expireTag s m t) :=
  ((readEnded_keeps s m _ _ _).trans (.modLink _ _ _)).trans (judgeMember_keeps _ m)

theorem endReturn_keeps (m cause : Nat) : KeepsPlaces s (endReturn s m cause) := by
  unfold endReturn
  split
  · exact (KeepsPlaces.reply _ _ _ _).trans (.modLink _ _ _)
  · exact .refl s

theorem dropLink_keeps (m : Nat) : KeepsPlaces s (dropLink s m) :=
  ((KeepsPlaces.modLink s m _).trans ((failMember_keeps _ m).ite (failTags_keeps _ m))).trans (endReturn_keeps _ m 1)

theorem takeResetDone_keeps (m : Nat) : KeepsPlaces s (takeResetDone s m) := by
  unfold takeResetDone returnMember
  refine (KeepsPlaces.modLink _ _ _).ite ?_
  split
  · exact ((KeepsPlaces.modLink _ _ _).trans (setMember_keeps _ _ _)).trans (.reply _ _ _ _)
  · exact .refl s

theorem raiseLink_keeps (m : Nat) : KeepsPlaces s (raiseLink s m) := (KeepsPlaces.modLink _ _ _).ite (.emit _ _)

/-! ## The Timebase Unit -/

theorem pulseMeasure_keeps : KeepsPlaces s (pulseMeasure s) := by
  have judged : KeepsPlaces s (judgeMeasure s) := by
    unfold judgeMeasure
    dsimp only
    split <;> exact .same rfl
  unfold pulseMeasure
  dsimp only
  split
  · exact .refl s
  · exact .same rfl
  · exact KeepsPlaces.refusedOr rfl judged

theorem limitMeasure_keeps : KeepsPlaces s (limitMeasure s) := by
  unfold limitMeasure
  dsimp only
  split <;> exact .same rfl

theorem takePulse_keeps : KeepsPlaces s (takePulse s) := by
  have stamped : ∀ (u : State) (x : Timebase), KeepsPlaces u { u with time := x } := fun u x => .same rfl
  exact (((stamped s _).trans (pulseMeasure_keeps _)).trans ((stamped _ _).ite (.refl _))).trans
    (.foldl (fun s c => firePending_keeps s c _ _) _ _)

/-! ## The Request Port -/

theorem endEvent_keeps {s x : State} (s0 : State) (h : KeepsPlaces s x) : KeepsPlaces s (endEvent s0 x) :=
  h.trans (endEvent_ends s0 x).keepsPlaces

/-- A write of the port record. -/
theorem KeepsPlaces.ofPort (x : Port) : KeepsPlaces s { s with port := x } := .same rfl

theorem takeRequest_keeps {act : Ticket → State → State} (h : ∀ t u, KeepsPlaces u (act t u)) (s0 : State) (tag : Nat)
    (r : Request) : KeepsPlaces s (takeRequest s0 tag r act s) :=
  endEvent_keeps _ ((KeepsPlaces.ofPort s _).trans (h _ _))

theorem takeAs_keeps {tag : Nat} {r : Request} {act : Ticket → State → State} (h : act = ownerAct r) :
    KeepsPlaces s (takeAs tag r act s) := by
  subst h
  exact ((takeRequest_keeps s (fun t u => ownerAct_keeps u t r) s tag r).ite (KeepsPlaces.ofPort s _)).ite (.refl s)

theorem takeBadKind_keeps (s0 : State) (tag kind : Nat) (failed : Bool) : KeepsPlaces s (takeBadKind s0 tag kind failed s) :=
  endEvent_keeps _ (.same rfl)

theorem takeThis_keeps (s0 : State) (q : InHand) : KeepsPlaces s (takeThis s0 s q) := by
  cases q with
  | request tag r => exact takeRequest_keeps s (fun t u => ownerAct_keeps u t r) s0 tag r
  | unknown tag kind => exact takeBadKind_keeps s s0 tag kind false
  | failed => exact takeBadKind_keeps s s0 0 0 true

theorem endTaking_keeps (s0 : State) : KeepsPlaces s (endTaking s0 s) := by
  unfold endTaking
  split
  · exact takeThis_keeps s s0 _
  · exact endEvent_keeps s0 (.refl s)

theorem writeWindow_keeps (offset width value : Nat) : KeepsPlaces s (writeWindow s offset width value) := by
  have tail : KeepsPlaces s (writeTail s value) := (KeepsPlaces.ofPort s _).ite (.refl s)
  have head : KeepsPlaces s (writeHead s value) := (KeepsPlaces.ofPort s _).ite (.refl s)
  have enable : KeepsPlaces s (enableRings s) := by
    unfold enableRings
    split
    · exact (KeepsPlaces.ofPort s _).ite (.refl s)
    · exact .refl s
    · exact .ofPort s _
  have disable : KeepsPlaces s (disableRings s) := (KeepsPlaces.refl s).ite (.ofPort s _)
  unfold writeWindow
  split
  · exact tail
  · exact head
  · exact enable.ite (disable.ite (.refl s))
  · exact .ofPort s _

/-! ## Every command -/

/-- Each command answers next, in a state that keeps the ninth law. -/
theorem exec_keeps (i : Instr) : ∃ t, exec i s = .next t ∧ KeepsPlaces s t := by
  have window : ∀ offset width value, KeepsPlaces s (endEvent s (writeWindow s offset width value)) := fun offset width value =>
    endEvent_keeps s (writeWindow_keeps s offset width value)
  have ofTime : ∀ x, KeepsPlaces s { s with time := x } := fun x => .same rfl
  cases i with
  | powerOnReset => exact ⟨_, rfl, fun _ _ => Channel.Placed.initial⟩
  | portWordWrite offset width value =>
    exact ⟨_, rfl, ((writeWindow_keeps s _ _ _).trans (endTaking_keeps _ s)).ite (window _ _ _)⟩
  | reqTailWrite value => exact ⟨_, rfl, window 12 4 value⟩
  | ansHeadWrite value => exact ⟨_, rfl, (writeWindow_keeps s 28 4 value).trans (endTaking_keeps _ s)⟩
  | ringEnableOn => exact ⟨_, rfl, window 32 4 1⟩
  | ringEnableOff => exact ⟨_, rfl, window 32 4 0⟩
  | requestReadDone entry =>
    refine ⟨_, rfl, ?_⟩
    split
    · exact (KeepsPlaces.ofPort s _).trans (endTaking_keeps _ s)
    · exact endEvent_keeps s (.ofPort s _)
    · exact endEvent_keeps s (.refl s)
  | requestTake =>
    refine ⟨_, rfl, ?_⟩
    split
    · exact takeThis_keeps s s _
    · exact .refl s
  | badKind tag kind readFailed =>
    exact ⟨_, rfl, ((takeBadKind_keeps s s _ _ _).ite (.ofPort s _)).ite (.refl s)⟩
  | groupListFetchEnd list =>
    refine ⟨_, rfl, ?_⟩
    split
    · exact ((endFetch_keeps s _ list).trans (settle_follows _).keepsPlaces).trans (endTaking_keeps _ s)
    · exact .refl s
  | cueExpiry c =>
    refine ⟨_, rfl, ?_⟩
    split
    · rename_i reached
      exact endEvent_keeps s (completeCue_follows s c true _ reached.1).keepsPlaces
    · exact .refl s
  | startTimeReached c => exact ⟨_, rfl, (endEvent_keeps s (firePending_keeps s c _ _)).ite (.refl s)⟩
  | startWaitLimit c => exact ⟨_, rfl, (endEvent_keeps s (firePending_keeps s c _ _)).ite (.refl s)⟩
  | dueTime c =>
    refine ⟨_, rfl, ?_⟩
    split
    · rename_i reached
      exact endEvent_keeps s (duePeriod_keeps reached.1)
    · exact .refl s
  | transferEnd c => exact ⟨_, rfl, (endEvent_keeps s (endTransfer_keeps s c)).ite (.refl s)⟩
  | doneReceived m d => exact ⟨_, rfl, (endEvent_keeps s (takeDone_keeps s m d)).ite (.refl s)⟩
  | tagExpiry m t => exact ⟨_, rfl, (endEvent_keeps s (expireTag_keeps s m t)).ite (.refl s)⟩
  | linkDown m => exact ⟨_, rfl, endEvent_keeps s (dropLink_keeps s m)⟩
  | linkUp m => exact ⟨_, rfl, endEvent_keeps s (raiseLink_keeps s m)⟩
  | resetDone m => exact ⟨_, rfl, endEvent_keeps s (takeResetDone_keeps s m)⟩
  | returnExpiry m => exact ⟨_, rfl, (endEvent_keeps s (endReturn_keeps s m 2)).ite (.refl s)⟩
  | refPulse high => exact ⟨_, rfl, (endEvent_keeps s (takePulse_keeps s)).ite (.refl s)⟩
  | calLimit => exact ⟨_, rfl, (endEvent_keeps s (limitMeasure_keeps s)).ite (.refl s)⟩
  | refLostTimeout => exact ⟨_, rfl, (endEvent_keeps s (ofTime _)).ite (.refl s)⟩
  | localCycle => exact ⟨_, rfl, ofTime s.time.cycle⟩
  | _ => exact ⟨_, rfl, takeAs_keeps s rfl⟩

end

theorem step_keeps {s t : State} (h : step s = .next t) : KeepsPlaces s t := by
  unfold step at h
  split at h
  · cases h
    exact .refl s
  · rename_i i rest _
    obtain ⟨u, hu, keeps⟩ := exec_keeps { s with pending := rest } i
    rw [hu] at h
    cases h
    exact KeepsPlaces.trans (t := { s with pending := rest }) (.same rfl) keeps

/-- Settles O49: each next position by `Course.next_cases`; each command keeps the ninth law channel by channel (`exec_keeps`). -/
theorem positionsStayInRange : Obligations.PositionsStayInRange := by
  refine ⟨fun k x v low high range hlow hhigh hv => ?_, fun s t held hstep => ?_⟩
  · refine ⟨fun none => hv.trans (Course.speedAt_of_none none _), fun w c some => hv.trans (Course.speedAt_of_some some _), ?_⟩
    exact Course.next_cases range hlow hhigh hv
  · exact (positionsHeld_iff t).2 (step_keeps hstep ((positionsHeld_iff s).1 held))

end Sys2Proof.Machine

/-! SUPPORT. SLOT_RETURN (R102). -/

namespace Sys2Proof.Machine

/-- The slots with the host once some of them are given back (R93, R102). -/
theorem Ring.hostHeld_returned (r : Ring) {n : Nat} (h : n ≤ r.hostHeld) :
    ({ r with returned := r.returned + BitVec.ofNat 32 n } : Ring).hostHeld = r.hostHeld - n := by
  unfold Ring.hostHeld at *
  dsimp only at *
  have small := (r.produce - r.returned).isLt
  bv_omega

@[simp] theorem State.reply_ring (s : State) (t : Ticket) (r : Result) (is : List Item) (c : Nat) :
    (s.reply t r is).ring c = s.ring c := rfl

theorem doSlotReturn_ok {s : State} {a : SlotReturnArgs} (q : Ticket) (h : badChannel s a.channel = false) :
    doSlotReturn a q s = (s.modRing a.channel (fun r =>
      { r with returned := r.returned + BitVec.ofNat 32 (min a.count r.hostHeld) })).reply q .ok
        [item1 (min a.count (s.ring a.channel).hostHeld), item1 ((s.ring a.channel).slotCount -
          ((s.ring a.channel).hostHeld - min a.count (s.ring a.channel).hostHeld) - (s.ring a.channel).taken)] := by
  unfold doSlotReturn
  rw [if_neg (by rw [h]; decide)]
  dsimp only
  rw [State.ring_modRing, if_pos rfl]
  unfold Ring.free
  rw [Ring.hostHeld_returned _ (Nat.min_le_right _ _)]
  rfl

/-- Settles O50: the owner raises the return count and answers (`doSlotReturn_ok`); what follows in the event leaves that count. -/
theorem slotReturnFreesSlots : Obligations.SlotReturnFreesSlots := by
  intro s tag a n hoff hc hs hn
  subst hn
  have act := doSlotReturn_ok (s := beginTake s) (ticketOf s 64 tag) (badChannel_eq_false hc hs)
  obtain ⟨t, ht, h⟩ := exec_happens (w := { rings := fun c => c = a.channel }) hoff act
    ((Does.setRing _ _ _ rfl).trans (Does.reply _ _ _ _))
  refine ⟨t, ht, h.frame, (h.ends.rings _).trans ?_, h.answered (handed_reply _ _ _ _)⟩
  rw [State.reply_ring, State.ring_modRing, if_pos rfl]
  rfl

end Sys2Proof.Machine

/-! SUPPORT. What an act that releases no user leaves of the READY entries: each stands but for users added, or was
reclaimed without a user (R107, R113, R114). All consequences of an event are such acts: `endEvent_spares`. -/

namespace Sys2Proof.Machine

/-! ## Sums over a table, and the holds on an entry -/

section
variable {α : Type} {d : α}

theorem sum_tinsert (g : Nat × α → Nat) (k : Nat) (v : α) (t : Tab α) :
    ((tinsert k v t).map g).sum = g (k, v) + (t.map g).sum := by
  induction t with
  | nil => rfl
  | cons c t ih =>
    simp only [tinsert]
    split
    · rfl
    · simp only [List.map_cons, List.sum_cons, ih]; omega

theorem sum_terase {f : α → Nat} (hf : f d = 0) {t : Tab α} (hs : tsorted t = true) (k : Nat) :
    ((terase t k).map (fun c => f c.2)).sum + f (tget d t k) = (t.map (fun c => f c.2)).sum := by
  induction t with
  | nil => simpa [terase, tget] using hf
  | cons c t ih =>
    obtain ⟨a, w⟩ := c
    obtain ⟨above, ht⟩ := tsorted_cons.1 hs
    have rest := ih ht
    by_cases e : a = k
    · subst e
      have unlisted : tget d t a = d := tget_of_unlisted fun x hx => (Nat.ne_of_lt (above x hx)).symm
      have erased : terase ((a, w) :: t) a = terase t a := by simp [terase]
      rw [unlisted, hf] at rest
      rw [erased, tget, if_pos rfl, List.map_cons, List.sum_cons, ← rest]
      exact Nat.add_comm _ _
    · have erased : terase ((a, w) :: t) k = (a, w) :: terase t k := by simp [terase, e]
      rw [erased, tget, if_neg e, List.map_cons, List.sum_cons, List.map_cons, List.sum_cons, ← rest, Nat.add_assoc]

/-- A write changes a sum over the table by what it changes of its record. -/
theorem sumOf_tset [DecidableEq α] {f : α → Nat} (hf : f d = 0) {t : Tab α} (hs : tsorted t = true) (k : Nat) (v : α) :
    sumOf (fun c => f c.2) (tset d t k v) + f (tget d t k) = sumOf (fun c => f c.2) t + f v := by
  have erased := sum_terase hf hs k
  rw [sumOf_eq_sum, sumOf_eq_sum]
  unfold tset
  split
  · rename_i none
    rw [none, hf]
    exact erased
  · rw [sum_tinsert, Nat.add_assoc, erased, Nat.add_comm]

end

/-- One when the ring's transfer holds the entry (R98, R107). -/
def Ring.holds (r : Ring) (id : Nat) : Nat := one (r.transfer.any (fun x => x.entry == id))

theorem Ring.holds_of_none {r : Ring} (h : r.transfer = none) (id : Nat) : r.holds id = 0 := by
  unfold Ring.holds; rw [h]; rfl

theorem Ring.holds_of_some {r : Ring} {x : Transfer} (h : r.transfer = some x) (id : Nat) :
    r.holds id = if x.entry = id then 1 else 0 := by
  unfold Ring.holds one
  rw [h]
  simp

theorem holdsOn_setRing {s : State} (hw : twf Ring.initial s.rings = true) (c : Nat) (r : Ring) (id : Nat) :
    holdsOn (s.setRing c r) id + (s.ring c).holds id = holdsOn s id + r.holds id :=
  sumOf_tset (d := Ring.initial) (f := fun r => r.holds id) rfl (twf_iff.1 hw).1 c r

theorem holdsOn_congr {s t : State} (h : t.rings = s.rings) (id : Nat) : holdsOn t id = holdsOn s id := by
  unfold holdsOn; rw [h]

/-! ## READY entries through an act -/

/-- The entry records and the rings are in canonical form. -/
def Canonical (s : State) : Prop := twf none s.store.entries = true ∧ twf Ring.initial s.rings = true

/-- A READY entry that nothing fills. -/
structure Filled (s : State) (id : Nat) (e : Entry) : Prop where
  entry : s.entry id = some e
  state : e.state = .ready
  context : s.context id = none

/-- What an entry record holds was there before, or has arrived since (log 19). -/
def Descends (s t : State) (id : Nat) : Prop :=
  ∀ x, t.entry id = some x → s.store.arrivals ≤ x.arrival ∨ ∃ e, s.entry id = some e ∧ x.arrival = e.arrival

/-- An entry stands but for references added, deadlines, and holds by the transfers that began (R98, R107). -/
structure Remains (s t : State) (id : Nat) (e : Entry) : Prop where
  context : t.context id = none
  entry : ∃ refs holds deadlines, t.entry id = some { e with refs := refs, transfers := holds, deadlines := deadlines } ∧
    e.refs ≤ refs ∧ e.transfers ≤ holds ∧ holds + holdsOn s id = e.transfers + holdsOn t id

/-- An entry without a user has left its record, which is free or holds an entry that arrived since (R114). -/
def Replaced (s t : State) (id : Nat) (e : Entry) : Prop :=
  e.unused = true ∧ ∀ x, t.entry id = some x → s.store.arrivals ≤ x.arrival

/-- An act that releases no user of a READY entry: each stands, or was reclaimed without a user. -/
structure Spares (s t : State) : Prop where
  wf : Canonical s → Canonical t
  arrivals : Canonical s → s.store.arrivals ≤ t.store.arrivals
  descends : Canonical s → ∀ id, Descends s t id
  ready : Canonical s → ∀ id e, Filled s id e → Remains s t id e ∨ Replaced s t id e

/-- An act on one entry record and its fill context. -/
structure Touches (id : Nat) (s t : State) : Prop where
  wf : Canonical s → Canonical t
  arrivals : s.store.arrivals ≤ t.store.arrivals
  descends : Descends s t id
  entries : ∀ j ≠ id, t.entry j = s.entry j
  contexts : ∀ j ≠ id, s.context j = none → t.context j = none
  rings : t.rings = s.rings

section
variable {s t u : State} {id : Nat}

theorem Descends.trans (ha : s.store.arrivals ≤ t.store.arrivals) (a : Descends s t id) (b : Descends t u id) :
    Descends s u id := fun x hx => by
  rcases b x hx with h | ⟨e, he, h⟩
  · exact .inl (ha.trans h)
  · rw [h]; exact a e he

theorem Descends.of_entry (h : t.entry id = s.entry id) : Descends s t id := fun x hx => .inr ⟨x, h ▸ hx, rfl⟩

theorem Remains.of_entry {e : Entry} (f : Filled s id e) (he : t.entry id = s.entry id) (hc : t.context id = none)
    (hr : t.rings = s.rings) : Remains s t id e :=
  ⟨hc, e.refs, e.transfers, e.deadlines, he.trans f.entry, Nat.le_refl _, Nat.le_refl _, by rw [holdsOn_congr hr]⟩

theorem Spares.intro (h : Canonical s → Spares s t) : Spares s t :=
  ⟨fun w => (h w).wf w, fun w => (h w).arrivals w, fun w => (h w).descends w, fun w => (h w).ready w⟩

theorem Spares.trans (a : Spares s t) (b : Spares t u) : Spares s u where
  wf w := b.wf (a.wf w)
  arrivals w := (a.arrivals w).trans (b.arrivals (a.wf w))
  descends w id := (a.descends w id).trans (a.arrivals w) (b.descends (a.wf w) id)
  ready w id e f := by
    rcases a.ready w id e f with ⟨hc, refs, holds, deadlines, he, hr, hh, sum⟩ | ⟨unused, gone⟩
    · rcases b.ready (a.wf w) id _ ⟨he, f.state, hc⟩ with ⟨hc', refs', holds', deadlines', he', hr', hh', sum'⟩ | ⟨unused, gone⟩
      · exact .inl ⟨hc', refs', holds', deadlines', he', hr.trans hr', hh.trans hh', by dsimp only at sum'; omega⟩
      · refine .inr ⟨?_, fun x hx => (a.arrivals w).trans (gone x hx)⟩
        simp only [Entry.unused, Bool.and_eq_true, beq_iff_eq] at unused ⊢
        omega
    · refine .inr ⟨unused, fun x hx => ?_⟩
      rcases b.descends (a.wf w) id x hx with h | ⟨y, hy, h⟩
      · exact (a.arrivals w).trans h
      · rw [h]; exact gone y hy

/-- An act that leaves every entry and ring and opens no fill context. -/
theorem Spares.same (he : t.store.entries = s.store.entries) (hr : t.rings = s.rings)
    (hc : ∀ j, s.context j = none → t.context j = none := by exact fun _ h => h)
    (ha : s.store.arrivals ≤ t.store.arrivals := by exact Nat.le_refl _) : Spares s t := by
  have entry : ∀ j, t.entry j = s.entry j := fun j => by unfold State.entry; rw [he]
  refine ⟨fun w => ?_, fun _ => ha, fun _ id => Descends.of_entry (entry id),
    fun _ id e f => .inl (Remains.of_entry f (entry id) (hc id f.context) hr)⟩
  unfold Canonical at *
  rw [he, hr]
  exact w

/-- An act that leaves the store, the schedule and the rings. -/
theorem Spares.blocks (store : t.store = s.store) (sched : t.sched = s.sched) (rings : t.rings = s.rings) : Spares s t :=
  Spares.same (congrArg Store.entries store) rings (fun j h => by unfold State.context at *; rw [sched]; exact h)
    (Nat.le_of_eq (congrArg Store.arrivals store).symm)

theorem Spares.refl (s : State) : Spares s s := Spares.blocks rfl rfl rfl

theorem Spares.ite {p : Prop} [Decidable p] {a b : State} (ha : Spares s a) (hb : Spares s b) :
    Spares s (if p then a else b) := by split <;> assumption

theorem Touches.trans (a : Touches id s t) (b : Touches id t u) : Touches id s u where
  wf w := b.wf (a.wf w)
  arrivals := a.arrivals.trans b.arrivals
  descends := a.descends.trans a.arrivals b.descends
  entries j h := (b.entries j h).trans (a.entries j h)
  contexts j h hc := b.contexts j h (a.contexts j h hc)
  rings := b.rings.trans a.rings

theorem Touches.same (he : t.store.entries = s.store.entries) (hr : t.rings = s.rings)
    (hc : ∀ j ≠ id, s.context j = none → t.context j = none := by exact fun _ _ h => h)
    (ha : s.store.arrivals ≤ t.store.arrivals := by exact Nat.le_refl _) : Touches id s t := by
  have entry : ∀ j, t.entry j = s.entry j := fun j => by unfold State.entry; rw [he]
  refine ⟨fun w => ?_, ha, Descends.of_entry (entry id), fun j _ => entry j, hc, hr⟩
  unfold Canonical at *
  rw [he, hr]
  exact w

theorem Touches.refl (s : State) : Touches id s s := Touches.same rfl rfl

theorem Touches.ite {p : Prop} [Decidable p] {a b : State} (ha : Touches id s a) (hb : Touches id s b) :
    Touches id s (if p then a else b) := by split <;> assumption

theorem Touches.setEntry (s : State) (id : Nat) (o : Option Entry)
    (h : ∀ x, o = some x → s.store.arrivals ≤ x.arrival ∨ ∃ e, s.entry id = some e ∧ x.arrival = e.arrival) :
    Touches id s (s.setEntry id o) where
  wf w := ⟨twf_tset none id o w.1, w.2⟩
  arrivals := Nat.le_refl _
  descends x hx := h x (by rwa [State.entry_setEntry, if_pos rfl] at hx)
  entries j hj := by rw [State.entry_setEntry, if_neg hj]
  contexts _ _ h := h
  rings := rfl

theorem Touches.modEntry (s : State) (id : Nat) (f : Entry → Entry)
    (hf : ∀ e, (f e).arrival = e.arrival := by exact fun _ => rfl) : Touches id s (s.modEntry id f) :=
  Touches.setEntry s id _ fun x hx => by
    obtain ⟨e, he, rfl⟩ := Option.map_eq_some_iff.1 hx
    exact .inr ⟨e, he, hf e⟩

/-- An act on one record spares every READY entry where it spares the record's own. -/
theorem Touches.spares (b : Touches id s t)
    (own : Canonical s → ∀ e, Filled s id e → Remains s t id e ∨ Replaced s t id e) : Spares s t where
  wf := b.wf
  arrivals _ := b.arrivals
  descends _ j := by
    by_cases e : j = id
    · subst e; exact b.descends
    · exact Descends.of_entry (b.entries j e)
  ready w j e f := by
    by_cases h : j = id
    · subst h; exact own w e f
    · exact .inl (Remains.of_entry f (b.entries j h) (b.contexts j h f.context) b.rings)

end

theorem State.entry_modEntry (s : State) (id : Nat) (f : Entry → Entry) : (s.modEntry id f).entry id = (s.entry id).map f :=
  (State.entry_setEntry _ _ _ _).trans (if_pos rfl)

/-! ## The Read Scheduler -/

/-- The read scheduler alone is written, and no fill context opened. -/
structure OpensNone (s t : State) : Prop where
  only : SchedOnly s t
  contexts : ∀ j, s.context j = none → t.context j = none

section
variable {s t u : State}

theorem OpensNone.trans (a : OpensNone s t) (b : OpensNone t u) : OpensNone s u :=
  ⟨a.only.trans b.only, fun j h => b.contexts j (a.contexts j h)⟩

theorem OpensNone.same (h : SchedOnly s t) (hc : t.sched.contexts = s.sched.contexts := by rfl) : OpensNone s t :=
  ⟨h, fun j hj => by unfold State.context at *; rw [hc]; exact hj⟩

theorem OpensNone.foldl {α : Type} {f : State → α → State} (h : ∀ s a, OpensNone s (f s a)) (l : List α) (s : State) :
    OpensNone s (l.foldl f s) := by
  induction l generalizing s with
  | nil => exact .same rfl
  | cons a l ih => exact (h s a).trans (ih _)

theorem OpensNone.times {f : State → State} (h : ∀ s, OpensNone s (f s)) (n : Nat) (s : State) : OpensNone s (times f n s) := by
  induction n generalizing s with
  | zero => exact .same rfl
  | succ n ih => exact (h s).trans (ih _)

theorem OpensNone.modContext (s : State) (id : Nat) (f : Context → Context) : OpensNone s (s.modContext id f) :=
  ⟨rfl, fun j hj => by
    unfold State.modContext
    rw [State.context_setContext]
    split
    · rename_i e; rw [← e, hj]; rfl
    · exact hj⟩

theorem OpensNone.spares (h : OpensNone s t) : Spares s t :=
  Spares.same (by rw [h.only]) (by rw [h.only]) h.contexts (by rw [h.only])

theorem OpensNone.touches {id : Nat} (h : OpensNone s t) : Touches id s t :=
  Touches.same (by rw [h.only]) (by rw [h.only]) (fun j _ => h.contexts j) (by rw [h.only])

theorem modPiece_opensNone (s : State) (id i : Nat) (f : FillPiece → FillPiece) : OpensNone s (modPiece s id i f) :=
  OpensNone.modContext s id _

theorem makeSet_opensNone (s : State) (id i : Nat) (p : Piece) : OpensNone s (makeSet s id i p) :=
  (OpensNone.foldl (f := fun s m => makeRead s id i p true m) (fun _ _ => .same rfl) p.others s).trans
    (modPiece_opensNone _ _ _ _)

theorem gatherOne_opensNone (s : State) (id i : Nat) : OpensNone s (gatherOne s id i) := by
  unfold gatherOne
  split
  · split
    · split
      · exact makeSet_opensNone _ _ _ _
      · exact modPiece_opensNone _ _ _ _
    · exact .same rfl
  · exact .same rfl

theorem releaseMany_opensNone (s : State) (n : Nat) : OpensNone s (releaseMany s n) :=
  OpensNone.times (fun s => by
    unfold releaseLoose
    split
    · exact gatherOne_opensNone _ _ _
    · exact .same rfl) n s

theorem closeContext_opensNone (s : State) (id : Nat) : OpensNone s (closeContext s id) := by
  refine OpensNone.trans (t := detachReads (cancelContext s id (fun _ => none)).1 id) ⟨rfl, fun j hj => ?_⟩
    (releaseMany_opensNone _ _)
  show (State.setContext _ id none).context j = none
  rw [State.context_setContext]
  split
  · rfl
  · exact hj

theorem convert_opensNone (s : State) (id i own : Nat) : OpensNone s (convert s id i own) := by
  have spend : ∀ n m, OpensNone s { s.modContext id (fun c => { c with reserve := c.reserve - n }) with
      sched := { (s.modContext id (fun c => { c with reserve := c.reserve - n })).sched with freeRecords := m } } := fun n m =>
    (OpensNone.modContext s id _).trans (.same rfl)
  unfold convert
  split
  · dsimp only
    split
    · exact (spend _ _).trans (makeSet_opensNone _ _ _ _)
    · exact ((spend _ _).trans (modPiece_opensNone _ _ _ _)).trans (.same rfl)
  · exact .same rfl

theorem spillReserve_spares {id : Nat} (h : spillReserve s id = some t) : Spares s t := by
  unfold spillReserve at h
  split at h
  · cases h
  · split at h
    · cases h
    · cases h
      exact ((OpensNone.modContext s id _).trans (releaseMany_opensNone _ _)).spares

theorem stampIfUnused_touches (s : State) (id : Nat) : Touches id s (stampIfUnused s id) := by
  have stamp : Touches id s (stampEntry s id) := (Touches.modEntry s id _).trans (.same rfl rfl)
  unfold stampIfUnused
  split
  · exact stamp.ite (.refl s)
  · exact .refl s

theorem returnPages_touches (s : State) (id : Nat) : Touches id s (returnPages s id) := by
  unfold returnPages
  split
  · rename_i e he
    refine (Touches.setEntry s id (some { e with pages := [] }) fun x hx => ?_).trans (.same rfl rfl)
    cases hx
    exact .inr ⟨e, he, rfl⟩
  · exact .refl s

theorem tellReferrers_touches (s : State) (id : Nat) (st : ListStatus) : Touches id s (tellReferrers s id st) := .same rfl rfl

theorem failEntry_touches (s : State) (id : Nat) (r : FailReason) : Touches id s (failEntry s id r) := by
  have failed : Touches id s ((returnPages s id).modEntry id (fun e => { e with state := .failed r })) :=
    (returnPages_touches s id).trans (Touches.modEntry _ id _)
  exact ((failed.trans (tellReferrers_touches _ id _)).trans (closeContext_opensNone _ id).touches).trans
    (stampIfUnused_touches _ id)

/-- A piece is handed, or the entry it fills fails: an entry with a fill context. -/
theorem handOne_spares {id : Nat} (h : handOne s id = some t) : Spares s t := by
  cases hc : s.context id with
  | none =>
    unfold handOne at h
    rw [hc] at h
    cases h
  | some c =>
    have fails : ∀ r, Spares s (failEntry s id r) := fun r => (failEntry_touches s id r).spares fun _ e f => by
      rw [f.context] at hc; cases hc
    have spend : ∀ n, OpensNone s (s.modContext id (fun c => { c with reserve := c.reserve - n })) := fun n =>
      OpensNone.modContext s id _
    unfold handOne at h
    rw [hc] at h
    dsimp only at h
    repeat' (split at h)
    all_goals first
      | (cases h; done)
      | (simp only [Option.some.injEq] at h; subst h)
    · exact ((spend _).trans (makeSet_opensNone _ _ _ _)).spares
    · exact fails _
    · exact ((OpensNone.trans (t := makeRead _ _ _ _ _ _) ((spend _).trans (.same rfl)) (modPiece_opensNone _ _ _ _))).spares
    · exact (convert_opensNone _ _ _ _).spares
    · exact fails _

theorem handStep_spares (h : handStep s = some t) : Spares s t := by
  obtain ⟨c, -, hc⟩ := firstSome_mem h
  split at hc
  · rename_i s' hs
    cases hc
    exact handOne_spares hs
  · exact spillReserve_spares hc

end

section
variable {s t : State}

/-! ## The Frame Store -/

theorem freeEntry_touches (s : State) (id : Nat) : Touches id s (freeEntry s id) :=
  (returnPages_touches s id).trans (.setEntry _ id none nofun)

theorem freeEntry_entry (s : State) (id : Nat) : (freeEntry s id).entry id = none :=
  (State.entry_setEntry _ _ _ _).trans (if_pos rfl)

theorem freeEntry_arrivals (s : State) (id : Nat) : (freeEntry s id).store.arrivals = s.store.arrivals := by
  unfold freeEntry returnPages
  split <;> rfl

/-- An entry is freed that no one uses. -/
theorem freeEntry_spares {id : Nat} (h : Canonical s → ∀ e, s.entry id = some e → e.unused = true) : Spares s (freeEntry s id) :=
  (freeEntry_touches s id).spares fun w e f =>
    .inr ⟨h w e f.entry, fun x hx => by rw [freeEntry_entry] at hx; cases hx⟩

/-- What a reclaim does: nothing, or the freeing of a reclaimable entry (R114). -/
theorem reclaimOne_cases (s : State) : reclaimOne s = s ∨ ∃ id, reclaimOne s = freeEntry s id ∧
    (Canonical s → ∃ e, s.entry id = some e ∧ e.reclaimable = true) := by
  unfold reclaimOne
  split
  · rename_i id e h
    exact .inr ⟨id, rfl, fun w => ⟨e, (mem_entriesWhere w.1).1 (bestBy_mem h)⟩⟩
  · exact .inl rfl

theorem reclaimOne_spares (s : State) : Spares s (reclaimOne s) := by
  rcases reclaimOne_cases s with h | ⟨id, h, reclaims⟩ <;> rw [h]
  · exact .refl s
  · refine freeEntry_spares fun w e he => ?_
    obtain ⟨x, hx, reclaimable⟩ := reclaims w
    rw [he] at hx; cases hx
    exact (Bool.and_eq_true_iff.1 reclaimable).1

/-- A reclaim leaves every entry that is not on the reclaim list. -/
theorem reclaimOne_entry {id : Nat} {e : Entry} (w : Canonical s) (he : s.entry id = some e) (h : e.reclaimable = false) :
    (reclaimOne s).entry id = some e := by
  rcases reclaimOne_cases s with eq | ⟨j, eq, reclaims⟩ <;> rw [eq]
  · exact he
  · obtain ⟨x, hx, reclaimable⟩ := reclaims w
    refine ((freeEntry_touches s j).entries id ?_).trans he
    rintro rfl
    rw [he] at hx; cases hx
    exact absurd (h.symm.trans reclaimable) (by decide)

theorem reclaimFor_spares (need n : Nat) (s : State) : Spares s (reclaimFor need n s) := by
  induction n generalizing s with
  | zero => exact .refl s
  | succ n ih => exact ((reclaimOne_spares s).trans (ih _)).ite (.refl s)

theorem reclaimFor_entry {id : Nat} {e : Entry} (need n : Nat) (w : Canonical s) (he : s.entry id = some e)
    (h : e.reclaimable = false) : (reclaimFor need n s).entry id = some e := by
  induction n generalizing s with
  | zero => exact he
  | succ n ih =>
    unfold reclaimFor
    split
    · exact ih ((reclaimOne_spares s).wf w) (reclaimOne_entry w he h)
    · exact he

/-- An act on the record of an entry that is not READY. -/
theorem Touches.spares_of_entry {id : Nat} {e : Entry} (b : Touches id s t) (he : s.entry id = some e) (h : e.state ≠ .ready) :
    Spares s t :=
  b.spares fun _ x f => absurd f.state (by have := f.entry; rw [he] at this; cases this; exact h)

theorem failWaiting_touches (s : State) (id : Nat) : Touches id s (failWaiting s id) := by
  have failed : Touches id s (s.modEntry id (fun e => { e with state := .failed .noMember })) := Touches.modEntry s id _
  exact (failed.trans (tellReferrers_touches _ id _)).trans (stampIfUnused_touches _ id)

/-- A waiting entry is granted pages that a reclaim has found (R111). -/
theorem makeGrant_spares {id : Nat} {e : Entry} (ks : List FillPiece) (n : Nat) (w : Canonical s) (he : s.entry id = some e)
    (hw : e.state = .filling) : Spares s (makeGrant s id e ks n) := by
  have stands := reclaimFor_entry e.pageNeed s.store.entries.length w he (by simp [Entry.reclaimable, hw])
  refine (reclaimFor_spares e.pageNeed s.store.entries.length s).trans ?_
  unfold makeGrant
  dsimp only
  generalize reclaimFor e.pageNeed s.store.entries.length s = u at stands
  have granted : ∀ x : Entry, x.arrival = e.arrival → Touches id u (u.setEntry id (some x)) := fun x hx =>
    .setEntry u id _ fun y hy => by cases hy; exact .inr ⟨e, stands, hx⟩
  have opened : ∀ (v : State) (free records : Nat) (c : Option Context), Touches id v (tellReferrers (State.setContext { v with
      store := { v.store with freePages := free }, sched := { v.sched with freeRecords := records } } id c) id .filling) :=
    fun v free records c => .same rfl rfl fun j hj h => ((State.context_setContext _ _ _ _).trans (if_neg hj)).trans h
  refine Touches.spares_of_entry (.trans ?_ (opened _ _ _ _)) stands (by rw [hw]; decide)
  exact granted _ rfl

theorem grantHead_spares (h : grantHead s = some t) : Spares s t := .intro fun w => by
  unfold grantHead at h
  cases head : waitHead s with
  | none => rw [head] at h; cases h
  | some x =>
    obtain ⟨id, e⟩ := x
    obtain ⟨he, waiting⟩ := (mem_entriesWhere w.1).1 (bestBy_mem head)
    have filling : e.state = .filling := by simpa using (Bool.and_eq_true_iff.1 waiting).1
    have wait : e.state ≠ .ready := by rw [filling]; decide
    rw [head] at h
    dsimp only at h
    repeat' (split at h)
    all_goals first
      | (cases h; done)
      | (simp only [Option.some.injEq] at h; subst h)
    · exact (failWaiting_touches s id).spares_of_entry he wait
    · exact (Touches.modEntry s id _).spares_of_entry he wait
    · exact makeGrant_spares _ _ w he filling

theorem endOverload_eq (s : State) : ∃ x, endOverload s = { s with store := { s.store with overload := false }, chans := x } := by
  have judged : ∀ (l : Tab Channel) (u : State),
      ∃ x, l.foldl (fun s c => s.modChan c.1 Channel.judged) u = { u with chans := x } := by
    intro l
    induction l with
    | nil => exact fun u => ⟨u.chans, rfl⟩
    | cons c l ih =>
      intro u
      obtain ⟨x, hx⟩ := ih (u.modChan c.1 Channel.judged)
      exact ⟨x, hx⟩
  exact judged _ _

theorem judgeOverload_spares (h : judgeOverload s = some t) : Spares s t := by
  obtain ⟨-, -, rfl⟩ | ⟨-, -, rfl⟩ := judgeOverload_cases h
  · obtain ⟨x, hx⟩ := endOverload_eq s
    rw [hx]
    exact .same rfl rfl
  · exact .same rfl rfl

theorem overloadJudged_spares (s : State) : Spares s (overloadJudged s) := by
  unfold overloadJudged
  cases h : judgeOverload s with
  | none => exact .refl s
  | some t => exact judgeOverload_spares h

/-! ## Resolution -/

theorem freeRecord_spares (s : State) : Spares s (freeRecord s).1 := by
  unfold freeRecord
  dsimp only
  split
  · exact .refl s
  · exact reclaimOne_spares s

theorem freeRecord_arrivals (s : State) : (freeRecord s).1.store.arrivals = s.store.arrivals := by
  unfold freeRecord
  dsimp only
  split
  · rfl
  · rcases reclaimOne_cases s with h | ⟨id, h, -⟩ <;> rw [h]
    exact freeEntry_arrivals s id

@[simp] theorem newEntry_arrival (s : State) (k : Key) (v : Nat) (l : Location) (n : Nat) : (newEntry s k v l n).arrival = n := by
  unfold newEntry
  dsimp only
  split <;> rfl

/-- An entry is admitted to a record that is free, as the next to arrive (R109, R110). -/
theorem findOrAdmit_spares (s : State) (k : Key) (v : Nat) (l : Location) : Spares s (findOrAdmit s k v l).1 := .intro fun w => by
  unfold findOrAdmit
  split
  · exact .refl s
  · have free := freeRecord_free w.1
    have arrivals := freeRecord_arrivals s
    refine (freeRecord_spares s).trans ?_
    generalize freeRecord s = x at free arrivals
    have admitted : Touches x.2 x.1 (x.1.setEntry x.2 (some (newEntry s k v l s.store.arrivals))) :=
      .setEntry _ _ _ fun y hy => by cases hy; exact .inl (by rw [newEntry_arrival, arrivals])
    have bumped : ∀ v, Touches x.2 v (bumpArrivals v) := fun v => .same rfl rfl (ha := Nat.le_succ _)
    exact (admitted.trans (bumped _)).spares fun _ e f => absurd (free.symm.trans f.entry) nofun

/-- References are added to an entry, or its deadlines written. -/
theorem Remains.of_refs {id : Nat} {e : Entry} {refs : Nat} {deadlines : List Int}
    (he : t.entry id = some { e with refs := refs, deadlines := deadlines }) (hr : e.refs ≤ refs) (hc : t.context id = none)
    (h : t.rings = s.rings) : Remains s t id e :=
  ⟨hc, refs, e.transfers, deadlines, he, hr, Nat.le_refl _, by rw [holdsOn_congr h]⟩

theorem addRef_spares (s : State) (id : Nat) : Spares s (addRef s id) := by
  have added : Touches id s (s.modEntry id (fun e => { e with refs := e.refs + 1 })) := Touches.modEntry s id _
  refine (added.spares fun _ e f => .inl ?_).trans (overloadJudged_spares _)
  exact Remains.of_refs (deadlines := e.deadlines) (by rw [State.entry_modEntry, f.entry]; rfl) (Nat.le_succ _) f.context rfl

theorem resolveAt_spares (s : State) (c i : Nat) : Spares s (resolveAt s c i) := by
  have list : ∀ (u : State) (f : ListEntry → ListEntry), Spares u (modList u c i f) := fun _ _ => .same rfl rfl
  unfold resolveAt
  dsimp only
  split
  · exact .refl s
  · split
    · split
      · exact list _ _
      · exact ((findOrAdmit_spares _ _ _ _).trans (addRef_spares _ _)).trans (list _ _)
    · exact list _ _

theorem refreshUrgency_spares (s : State) : Spares s (refreshUrgency s) := by
  have entry : ∀ id, (refreshUrgency s).entry id = (s.entry id).map (withDeadlines (deadlinesGiven s) id) := fun id =>
    tget_tmap _ (fun id (o : Option Entry) => o.map (withDeadlines (deadlinesGiven s) id)) _ _ rfl
  have wf : twf none s.store.entries = true → twf none (refreshUrgency s).store.entries = true :=
    twf_tmap (f := fun id (o : Option Entry) => o.map (withDeadlines (deadlinesGiven s) id)) fun k v hv => by simpa using hv
  refine ⟨fun w => ⟨wf w.1, w.2⟩, fun _ => Nat.le_refl _, fun _ id x hx => ?_,
    fun _ id e f => .inl (Remains.of_refs (by rw [entry, f.entry]; rfl) (Nat.le_refl _) f.context rfl)⟩
  rw [entry] at hx
  obtain ⟨e, he, rfl⟩ := Option.map_eq_some_iff.1 hx
  exact .inr ⟨e, he, rfl⟩

/-! ## The Delivery Engine -/

/-- A ring is written, its transfer standing. -/
theorem Spares.setRing {c : Nat} {r : Ring} (h : r.transfer = (s.ring c).transfer) : Spares s (s.setRing c r) where
  wf w := ⟨w.1, twf_tset _ c r w.2⟩
  arrivals _ := Nat.le_refl _
  descends _ _ := Descends.of_entry rfl
  ready w id e f := by
    have holds := holdsOn_setRing w.2 c r id
    have same : r.holds id = (s.ring c).holds id := by unfold Ring.holds; rw [h]
    exact .inl ⟨f.context, e.refs, e.transfers, e.deadlines, f.entry, Nat.le_refl _, Nat.le_refl _, by omega⟩

theorem Spares.emit (s : State) (o : Output) : Spares s (s.emit o) := .same rfl rfl

theorem Spares.modChan (s : State) (c : Nat) (f : Channel → Channel) : Spares s (s.modChan c f) := .same rfl rfl

theorem publishOne_spares (c : Nat) (s : State) : Spares s (publishOne c s) :=
  (Spares.setRing (by rfl)).trans (.emit _ _)

theorem writeNoData_spares (s : State) (c : Nat) (d : Record) : Spares s (writeNoData s c d) := by
  have taken : ∀ o, Spares s ((s.setRing c { (s.ring c).advance with taken := (s.ring c).taken + 1 }).emit o) := fun o =>
    (Spares.setRing (by rfl)).trans (.emit _ _)
  unfold writeNoData
  dsimp only
  split
  · exact taken _
  · exact (taken _).trans (publishOne_spares _ _)

/-- A transfer begins where none was in flight: its hold is placed on its entry (R98, R107). -/
theorem beginTransfer_spares {c : Nat} (id : Nat) (x : Entry) (p : Cursor) (h : (s.ring c).transfer = none) :
    Spares s (beginTransfer s c id x p) := by
  unfold beginTransfer
  dsimp only
  refine Spares.trans ?_ (.modChan _ c _)
  generalize hr : ({ (s.ring c).advance with taken := (s.ring c).taken + 1, transfer := some _ } : Ring) = r
  have entry : ∀ j, (addHold (s.setRing c r) id).entry j =
      if j = id then (s.entry id).map (fun e => { e with transfers := e.transfers + 1 }) else s.entry j := fun j =>
    State.entry_setEntry _ _ _ _
  refine ⟨fun w => ⟨twf_tset none id _ w.1, twf_tset _ c r w.2⟩, fun _ => Nat.le_refl _, fun _ j y hy => ?_, fun w j e f => ?_⟩
  · rw [entry] at hy
    split at hy
    · rename_i eq
      obtain ⟨e, he, rfl⟩ := Option.map_eq_some_iff.1 hy
      exact .inr ⟨e, eq ▸ he, rfl⟩
    · exact .inr ⟨y, hy, rfl⟩
  · have holds : holdsOn (addHold (s.setRing c r) id) j + (s.ring c).holds j = holdsOn s j + r.holds j :=
      holdsOn_setRing w.2 c r j
    rw [Ring.holds_of_none h, Ring.holds_of_some (congrArg Ring.transfer hr.symm)] at holds
    by_cases eq : j = id
    · subst eq
      rw [if_pos rfl] at holds
      exact .inl ⟨f.context, e.refs, e.transfers + 1, e.deadlines, by rw [entry, if_pos rfl, f.entry]; rfl, Nat.le_refl _,
        Nat.le_succ _, by omega⟩
    · rw [if_neg (Ne.symm eq)] at holds
      exact .inl ⟨f.context, e.refs, e.transfers, e.deadlines, by rw [entry, if_neg eq, f.entry], Nat.le_refl _, Nat.le_refl _,
        by omega⟩

theorem deliverOne_spares {c : Nat} (h : deliverOne s c = some t) : Spares s t := by
  have written : ∀ d p, Spares s (markWritten (writeNoData s c d) c p) := fun d p =>
    (writeNoData_spares s c d).trans (.modChan _ _ _)
  unfold deliverOne at h
  dsimp only at h
  split at h
  · cases h
  split at h
  · cases h
    exact (writeNoData_spares _ _ _).trans (Spares.setRing (by rfl))
  split at h
  · unfold deliverPeriod beginIfReady at h
    dsimp only at h
    repeat' (split at h)
    all_goals first
      | (cases h; done)
      | skip
    · cases h
      exact written _ _
    · rename_i free
      obtain ⟨x, -, rfl⟩ := Option.map_eq_some_iff.1 h
      exact beginTransfer_spares _ _ _ (Option.isNone_iff_eq_none.1 free.1)
  · cases h

/-! ## All consequences -/

theorem extendStep_spares (h : extendStep s = some t) : Spares s t := by
  obtain ⟨c, -, hc⟩ := firstSome_mem h
  unfold extendOne at hc
  split at hc
  · obtain ⟨d, -, rfl⟩ := Option.map_eq_some_iff.1 hc
    exact .modChan _ _ _
  · cases hc

theorem cueStep_spares (h : cueStep s = some t) : Spares s t := by
  obtain ⟨c, -, hc⟩ := firstSome_mem h
  unfold cueOne at hc
  split at hc
  · cases hc
    unfold completeCue
    dsimp only
    split <;> exact .same rfl rfl
  · cases hc

theorem issueStep_spares (h : issueStep s = some t) : Spares s t := by
  obtain ⟨m, -, hm⟩ := firstSome_mem h
  unfold issueOne at hm
  repeat' (split at hm)
  all_goals first
    | (cases hm; done)
    | (cases hm; exact .same rfl rfl)

/-- One consequence is one of the eight. -/
theorem settleStep_cases (h : settleStep s = some t) : handStep s = some t ∨ judgeOverload s = some t ∨ grantHead s = some t ∨
    resolveStep s = some t ∨ extendStep s = some t ∨ cueStep s = some t ∨ deliverStep s = some t ∨ issueStep s = some t := by
  have either : ∀ {a b : State → Option State}, orStep a b s = some t → a s = some t ∨ b s = some t := fun {a b} h => by
    unfold orStep at h
    split at h
    · rename_i x hx; exact .inl (hx.trans h)
    · exact .inr h
  unfold settleStep at h
  exact (either h).imp_right fun h => (either h).imp_right fun h => (either h).imp_right fun h => (either h).imp_right fun h =>
    (either h).imp_right fun h => (either h).imp_right fun h => either h

theorem settleStep_spares (h : settleStep s = some t) : Spares s t := by
  rcases settleStep_cases h with h | h | h | h | h | h | h | h
  · exact handStep_spares h
  · exact judgeOverload_spares h
  · exact grantHead_spares h
  · obtain ⟨c, -, hc⟩ := firstSome_mem h
    obtain ⟨i, -, rfl⟩ := Option.map_eq_some_iff.1 hc
    exact resolveAt_spares _ _ _
  · exact extendStep_spares h
  · exact cueStep_spares h
  · obtain ⟨c, -, hc⟩ := firstSome_mem h
    exact deliverOne_spares hc
  · exact issueStep_spares h

theorem settleFor_spares (n : Nat) (s : State) : Spares s (settleFor n s) := by
  induction n generalizing s with
  | zero => exact .refl s
  | succ n ih =>
    have fresh := refreshUrgency_spares s
    unfold settleFor
    dsimp only
    split
    · rename_i t ht
      exact (fresh.trans (settleStep_spares ht)).trans (ih t)
    · exact fresh

/-- The close of an event writes the port, the channel flags and the outputs alone. -/
theorem startRead_finish_blocks (s0 s : State) : (startRead (finish s0 s)).store = s.store ∧
    (startRead (finish s0 s)).sched = s.sched := by
  have closed : (finish s0 s).store = s.store ∧ (finish s0 s).sched = s.sched := by
    obtain ⟨x, o, hf⟩ := finish_eq s0 s
    obtain ⟨a, v, st, o2, hw, -⟩ := writeAnswers_fold
      (sortBy (fun a b => decide (a.ticket.seq < b.ticket.seq)) (applyConditions s0 s).handed) (applyConditions s0 s)
    rw [hf]
    unfold writeAnswers
    rw [hw]
    exact ⟨rfl, rfl⟩
  rcases startRead_eq (finish s0 s) with h | ⟨-, h⟩ <;> rw [h] <;> exact closed

theorem endEvent_spares (s0 s : State) : Spares s (endEvent s0 s) := by
  obtain ⟨store, sched⟩ := startRead_finish_blocks s0 (settle s)
  exact (settleFor_spares _ s).trans (t := settle s) (.blocks store sched (startRead_finish s0 _).rings)

end

end Sys2Proof.Machine

/-! SUPPORT. The end of a transfer at the Delivery Engine: its hold released, the taken slots published, a closing ring dropped
(R94, R98, R99, R103, R104). -/

namespace Sys2Proof.Machine

section
variable {s t : State}

/-! ## A channel that does not run -/

theorem writeNoData_transfer (s : State) (c : Nat) (d : Record) (i : Nat) :
    ((writeNoData s c d).ring i).transfer = (s.ring i).transfer := by
  by_cases e : i = c
  · subst e
    have put : ∀ (u : State) (r : Ring) (o : Output), (((u.setRing i r).emit o).ring i) = r := fun u r o =>
      (State.ring_setRing _ _ _ _).trans (if_pos rfl)
    unfold writeNoData publishOne
    dsimp only
    split
    · rw [put]; rfl
    · rw [put, put]; rfl
  · rw [writeNoData_ring_ne d e]

theorem deliverOne_idle {c : Nat} (h : deliverOne s c = some t) (hs : (s.chan c).state ≠ .running) :
    (t.ring c).transfer = (s.ring c).transfer := by
  unfold deliverOne at h
  dsimp only at h
  split at h
  · cases h
  split at h
  · cases h
    unfold writeRevoke
    rw [State.ring_modRing, if_pos rfl]
    exact writeNoData_transfer s c _ c
  · cases h

/-- No transfer begins on a channel that does not run (R97). -/
theorem settleStep_idle {c : Nat} (h : settleStep s = some t) (hs : (s.chan c).state ≠ .running) :
    (t.ring c).transfer = (s.ring c).transfer := by
  rcases settleStep_cases h with h | h | h | h | h | h | h | h
  · rw [(handStep_acts (S := fun _ => False) h).rings c id]
  · rw [(judgeOverload_acts (S := fun _ => False) h).rings c id]
  · rw [(grantHead_acts (S := fun _ => False) h).rings c id]
  · obtain ⟨k, -, hk⟩ := firstSome_mem h
    obtain ⟨i, -, rfl⟩ := Option.map_eq_some_iff.1 hk
    rw [(resolveAt_acts (S := fun _ => False) s k.1 i).rings c id]
  · obtain ⟨k, -, hk⟩ := firstSome_mem h
    unfold extendOne at hk
    split at hk
    · obtain ⟨d, -, rfl⟩ := Option.map_eq_some_iff.1 hk
      rfl
    · cases hk
  · obtain ⟨k, -, hk⟩ := firstSome_mem h
    unfold cueOne at hk
    split at hk
    · cases hk
      rw [completeCue_ring]
    · cases hk
  · obtain ⟨k, -, hk⟩ := firstSome_mem h
    by_cases e : c = k.1
    · exact deliverOne_idle (e ▸ hk) hs
    · rw [deliverOne_ring_ne hk e]
  · obtain ⟨m, -, hm⟩ := firstSome_mem h
    unfold issueOne at hm
    repeat' (split at hm)
    all_goals first
      | (cases hm; done)
      | (cases hm; rfl)

theorem Follows.not_running (f : Follows s t) {c : Nat} (h : (s.chan c).state ≠ .running) : (t.chan c).state ≠ .running := by
  rcases f.state c with e | ⟨-, e⟩ <;> rw [e]
  exacts [h, nofun]

theorem settleFor_idle {c : Nat} (n : Nat) (s : State) (hs : (s.chan c).state ≠ .running) :
    ((settleFor n s).ring c).transfer = (s.ring c).transfer := by
  induction n generalizing s with
  | zero => rfl
  | succ n ih =>
    have fresh := (refreshUrgency_follows s).not_running hs
    unfold settleFor
    dsimp only
    split
    · rename_i t ht
      have begun : (t.ring c).transfer = ((refreshUrgency s).ring c).transfer := settleStep_idle ht fresh
      exact (ih t ((settleStep_follows ht).not_running fresh)).trans begun
    · rfl

theorem endEvent_idle {c : Nat} (s0 s : State) (hs : (s.chan c).state ≠ .running) :
    ((endEvent s0 s).ring c).transfer = (s.ring c).transfer := by
  have rings : (endEvent s0 s).ring c = (settle s).ring c := by
    unfold State.ring; rw [show (endEvent s0 s).rings = _ from (startRead_finish s0 _).rings]
  rw [rings]
  exact settleFor_idle _ s hs

/-! ## The hold released -/

/-- The hold of a transfer that has ended is yet to be released: store and schedule stand. -/
structure Unheld (s y : State) (id : Nat) : Prop where
  store : y.store = s.store
  sched : y.sched = s.sched
  rings : twf Ring.initial s.rings = true → twf Ring.initial y.rings = true ∧ holdsOn y id + 1 = holdsOn s id

theorem settlePlace_ready {id : Nat} {e : Entry} (he : s.entry id = some e) (h : e.state = .ready) : settlePlace s id =
    if e.unused then (if e.cleared then freeEntry s id else stampEntry s id) else s := by
  unfold settlePlace
  rw [he]
  dsimp only
  rw [h]

/-- The count of a READY entry's holds falls, and its place is settled; what follows spares it (R99, R107, R113, R124). -/
theorem Unheld.released {y : State} {id : Nat} {e : Entry} (u : Unheld s y id) (w : Canonical s) (f : Filled s id e)
    (hold : 0 < e.transfers) (rest : Spares (releaseHold y id) t) : HoldReleased s t id e := by
  obtain ⟨entries, rings⟩ := w
  obtain ⟨wf, holds⟩ := u.rings rings
  generalize lowered : y.modEntry id (fun e => { e with transfers := e.transfers - 1 }) = v
  have settled : Spares (settlePlace v id) t := by
    rw [← lowered]
    exact (overloadJudged_spares _).trans rest
  have entry : v.entry id = some { e with transfers := e.transfers - 1 } := by
    rw [← lowered, State.entry_modEntry, show y.entry id = s.entry id by unfold State.entry; rw [u.store], f.entry]
    rfl
  have context : v.context id = none := by
    rw [← lowered, ← f.context]
    unfold State.context
    rw [← u.sched]
    rfl
  have canonical : Canonical v := by
    rw [← lowered]
    exact (Touches.modEntry y id _).wf ⟨by rw [u.store]; exact entries, wf⟩
  have arrivals : v.store.arrivals = s.store.arrivals := by rw [← lowered, ← u.store]; rfl
  have stamps : v.store.stamps = s.store.stamps := by rw [← lowered, ← u.store]; rfl
  have holds : holdsOn v id + 1 = holdsOn s id := by rw [← lowered]; exact holds
  rw [settlePlace_ready entry f.state] at settled
  refine ⟨fun used => ?_, fun refs pins one x hx => ?_⟩
  · have used : Entry.unused { e with transfers := e.transfers - 1 } = false := by
      simp only [Entry.unused, Bool.and_eq_false_iff, beq_eq_false_iff_ne]
      omega
    rw [used, if_neg (by decide)] at settled
    rcases settled.ready canonical id _ ⟨entry, f.state, context⟩ with ⟨-, r, h, d, ht, hr, -, sum⟩ | ⟨unused, -⟩
    · exact ⟨r, h, d, ht, hr, by dsimp only at sum; omega⟩
    · exact absurd (used.symm.trans unused) (by decide)
  · have unused : Entry.unused { e with transfers := e.transfers - 1 } = true := by simp [Entry.unused, refs, pins, one]
    rw [unused, if_pos rfl] at settled
    cases cleared : e.cleared with
    | true =>
      rw [if_pos cleared] at settled
      rcases settled.descends ((freeEntry_touches v id).wf canonical) id x hx with h | ⟨y, hy, -⟩
      · exact .inl (by rwa [freeEntry_arrivals, arrivals] at h)
      · rw [freeEntry_entry] at hy; cases hy
    | false =>
      rw [if_neg (by rw [cleared]; decide)] at settled
      have stamped : (stampEntry v id).entry id = some { e with transfers := e.transfers - 1, stamp := v.store.stamps } :=
        (State.entry_modEntry v id _).trans (by rw [entry]; rfl)
      have canonical : Canonical (stampEntry v id) := (Touches.modEntry v id _).wf canonical
      rcases settled.ready canonical id _ ⟨stamped, f.state, context⟩ with ⟨-, r, h, d, ht, -⟩ | ⟨-, gone⟩
      · rw [hx] at ht; cases ht
        exact .inr ⟨rfl, stamps⟩
      · exact .inl (arrivals ▸ gone x hx)

/-! ## The slots published -/

/-- Taken slots published one after another (R94). -/
structure Publishes (c n : Nat) (s t : State) : Prop where
  chans : t.chans = s.chans
  store : t.store = s.store
  sched : t.sched = s.sched
  transfer : (t.ring c).transfer = (s.ring c).transfer
  rings : twf Ring.initial s.rings = true → twf Ring.initial t.rings = true ∧ ∀ id, holdsOn t id = holdsOn s id
  words : ∀ i, 1 ≤ i → i ≤ n →
    .produceWord (s.ring c).produceAddress ((s.ring c).produce + BitVec.ofNat 32 i) ∈ outputsSince s t

theorem publishOne_ring (c : Nat) (s : State) : (publishOne c s).ring c =
    { s.ring c with produce := (s.ring c).produce + 1, taken := (s.ring c).taken - 1 } :=
  (State.ring_setRing _ _ _ _).trans (if_pos rfl)

theorem times_publishOne (c n : Nat) (s : State) : Publishes c n s (times (publishOne c) n s) := by
  induction n generalizing s with
  | zero => exact ⟨rfl, rfl, rfl, rfl, fun h => ⟨h, fun _ => rfl⟩, fun i h1 h0 => by omega⟩
  | succ n ih =>
    have one := publishOne_follows c s
    have rest := ih (publishOne c s)
    have follows := Follows.times _ (publishOne_follows c) n (publishOne c s)
    show Publishes c (n + 1) s (times (publishOne c) n (publishOne c s))
    refine ⟨rest.chans, rest.store, rest.sched, rest.transfer.trans (by rw [publishOne_ring]), fun w => ?_, fun i h1 hn => ?_⟩
    · obtain ⟨wf, holds⟩ := rest.rings (twf_tset _ c _ w)
      refine ⟨wf, fun id => (holds id).trans (Nat.add_right_cancel (m := (s.ring c).holds id) ?_)⟩
      exact holdsOn_setRing w c { s.ring c with produce := (s.ring c).produce + 1, taken := (s.ring c).taken - 1 } id
    · obtain ⟨k, rfl⟩ := Nat.exists_eq_add_of_le h1
      obtain rfl | h2 : k = 0 ∨ 1 ≤ k := by omega
      · exact drop_mem_of_prefix one.out follows.out (mem_outputsSince_emit rfl)
      · have word := rest.words k h2 (by omega)
        rw [publishOne_ring, BitVec.add_assoc] at word
        rw [BitVec.ofNat_add]
        exact drop_mem_of_later one.out follows.out word

end

section
variable {s t : State} {c : Nat} {x : Transfer}

/-! ## The end of a transfer -/

theorem Does.emit {w : Touched} (s : State) (o : Output) : Does w s (s.emit o) := (Follows.emit s o).does

/-- What the end of a channel's transfer leaves, with its frame in the slot and whether or not a record is written. -/
structure TransferEnded (s y : State) (c : Nat) (x : Transfer) : Prop where
  does : Does { chans := fun k => k = c, rings := fun k => k = c } s y
  transfer : (y.ring c).transfer = none
  state : (s.chan c).state ≠ .running → (y.chan c).state ≠ .running
  released : ∀ t, Spares y t → Canonical s → ∀ e, Filled s x.entry e → 0 < e.transfers → HoldReleased s t x.entry e

theorem abandon_rings (s : State) (id : Nat) : (abandon s id).rings = s.rings := by
  have cancel : SchedOnly (returnPages s id)
      (cancelContext (returnPages s id) id (Option.map (fun _ => (⟨[], 0, true⟩ : Context)))).1 := rfl
  unfold abandon
  dsimp only
  generalize cancelContext (returnPages s id) id _ = x at cancel
  have many := cancel.trans (releaseMany_sched x.1 x.2)
  have rings : (releaseMany x.1 x.2).rings = s.rings := by rw [many]; exact (returnPages_touches s id).rings
  split
  · exact (freeEntry_touches _ id).rings.trans rings
  · exact rings

theorem settlePlace_rings (s : State) (id : Nat) : (settlePlace s id).rings = s.rings := by
  have freed := (freeEntry_touches s id).rings
  unfold settlePlace
  split
  · rfl
  · split
    · split
      · split
        · exact abandon_rings s id
        · exact freed
      · rfl
    · rfl
    · split
      · split
        · exact freed
        · rfl
      · rfl

theorem overloadJudged_rings (s : State) : (overloadJudged s).rings = s.rings := by
  unfold overloadJudged
  cases h : judgeOverload s with
  | none => rfl
  | some t =>
    obtain ⟨-, -, rfl⟩ | ⟨-, -, rfl⟩ := judgeOverload_cases h
    · obtain ⟨x, hx⟩ := endOverload_eq s
      rw [hx]
      rfl
    · rfl

/-- The release of a hold leaves every ring (R99 step 2). -/
theorem releaseHold_rings (s : State) (id : Nat) : (releaseHold s id).rings = s.rings :=
  (overloadJudged_rings _).trans (settlePlace_rings _ id)

theorem releaseHold_ring (s : State) (id i : Nat) : (releaseHold s id).ring i = s.ring i := by
  unfold State.ring; rw [releaseHold_rings]

/-- The ring of a channel once its transfer is over, its hold yet to be released. -/
theorem Unheld.setRing (hx : (s.ring c).transfer = some x) {r : Ring} (hr : r.transfer = none) :
    Unheld s (s.setRing c r) x.entry where
  store := rfl
  sched := rfl
  rings w := by
    have holds := holdsOn_setRing w c r x.entry
    rw [Ring.holds_of_none hr, Ring.holds_of_some hx, if_pos rfl] at holds
    exact ⟨twf_tset _ c r w, holds⟩

/-- From the state in which the transfer is over and its hold yet to be released. -/
theorem Unheld.ended {u y : State} (h : Unheld s u x.entry)
    (before : Does { chans := fun k => k = c, rings := fun k => k = c } s u) (chans : u.chans = s.chans)
    (after : Does { chans := fun k => k = c, rings := fun k => k = c } (releaseHold u x.entry) y)
    (spares : Spares (releaseHold u x.entry) y) (transfer : (y.ring c).transfer = none)
    (state : (y.chan c).state = ((releaseHold u x.entry).chan c).state) : TransferEnded s y c x where
  does := (before.trans (releaseHold_follows u x.entry).does).trans after
  transfer := transfer
  state hs := by
    rw [state]
    exact (releaseHold_follows u x.entry).not_running (by unfold State.chan at *; rw [chans]; exact hs)
  released t rest w e f hold := h.released w f hold (spares.trans rest)

/-! ## On an open channel -/

/-- The record written and the transfer no longer in flight (R99 steps 1 and 4). -/
def recorded (s : State) (c : Nat) (x : Transfer) : State :=
  (s.emit (.record ((s.ring c).recordAddress x.slot) x.record)).setRing c { s.ring c with transfer := none }

/-- The record written and every taken slot published (R94, R99 step 1). -/
def published (s : State) (c : Nat) (x : Transfer) : State := times (publishOne c) (s.ring c).taken (recorded s c x)

theorem finishTransfer_eq (s : State) (c : Nat) (x : Transfer) : finishTransfer s c x =
    (releaseHold (published s c x) x.entry).modChan c (fun ch => { ch with missing := false }) := rfl

/-- What an open channel has once its transfer is over. -/
structure Published (s y : State) (c : Nat) (x : Transfer) : Prop where
  follows : Follows s y
  chans : y.chans = s.chans
  transfer : (y.ring c).transfer = none
  unheld : Unheld s y x.entry
  record : .record ((s.ring c).recordAddress x.slot) x.record ∈ outputsSince s y
  words : ∀ i, 1 ≤ i → i ≤ (s.ring c).taken →
    .produceWord (s.ring c).produceAddress ((s.ring c).produce + BitVec.ofNat 32 i) ∈ outputsSince s y

theorem recorded_unheld (hx : (s.ring c).transfer = some x) : Unheld s (recorded s c x) x.entry := by
  obtain ⟨store, sched, rings⟩ := Unheld.setRing (s := s.emit (.record ((s.ring c).recordAddress x.slot) x.record)) hx
    (r := { s.ring c with transfer := none }) rfl
  exact ⟨store, sched, rings⟩

theorem published_of_transfer (hx : (s.ring c).transfer = some x) : Published s (published s c x) c x := by
  have unheld := recorded_unheld hx
  have written : Follows s (recorded s c x) := (Follows.emit s _).trans (Follows.setRing _ c _ (by rfl))
  have record : .record ((s.ring c).recordAddress x.slot) x.record ∈ outputsSince s (recorded s c x) := mem_outputsSince_emit rfl
  have chans : (recorded s c x).chans = s.chans := rfl
  have ring : (recorded s c x).ring c = { s.ring c with transfer := none } := (State.ring_setRing _ _ _ _).trans (if_pos rfl)
  unfold published
  generalize recorded s c x = u at *
  have follows := Follows.times _ (publishOne_follows c) (s.ring c).taken u
  have slots := times_publishOne c (s.ring c).taken u
  refine ⟨written.trans follows, slots.chans.trans chans, slots.transfer.trans (by rw [ring]),
    ⟨slots.store.trans unheld.store, slots.sched.trans unheld.sched, fun w => ?_⟩,
    drop_mem_of_prefix written.out follows.out record, fun i h1 hn => ?_⟩
  · obtain ⟨wf, holds⟩ := unheld.rings w
    obtain ⟨wf', holds'⟩ := slots.rings wf
    exact ⟨wf', by rw [holds', holds]⟩
  · have word := slots.words i h1 hn
    rw [ring] at word
    exact drop_mem_of_later written.out follows.out word

theorem finishTransfer_ended (hx : (s.ring c).transfer = some x) : TransferEnded s (finishTransfer s c x) c x := by
  have done := published_of_transfer hx
  rw [finishTransfer_eq]
  refine done.unheld.ended done.follows.does done.chans (.modChan _ _ _ (.inl rfl)) (.modChan _ _ _) ?_ ?_
  · exact (congrArg Ring.transfer (releaseHold_ring _ _ _)).trans done.transfer
  · rw [State.chan_modChan_self]

theorem finishTransfer_kept (hx : (s.ring c).transfer = some x) :
    ((finishTransfer s c x).chan c).kept = ({ s.chan c with missing := false } : Channel).kept ∧
      ((finishTransfer s c x).ring c).kept = (s.ring c).kept := by
  have done := published_of_transfer hx
  have follows := done.follows.trans (releaseHold_follows (published s c x) x.entry)
  rw [finishTransfer_eq, State.chan_modChan_self]
  exact ⟨Channel.kept_congr (fun ch => { ch with missing := false }) (follows.chans c) fun _ => rfl, follows.rings c⟩

/-- The record and the produce words stand among the outputs. -/
theorem finishTransfer_writes (hx : (s.ring c).transfer = some x) {o : Output}
    (h : o ∈ outputsSince s (published s c x)) : o ∈ outputsSince s (finishTransfer s c x) :=
  drop_mem_of_prefix (published_of_transfer hx).follows.out (releaseHold_follows (published s c x) x.entry).out h

/-! ## On a closing channel -/

theorem dropRing_does {w : Touched} (s : State) (c : Nat) (hc : w.chans c) (hr : w.rings c) : Does w s (dropRing s c) := by
  have told : ∀ (o : Option Ticket) (u : State), Does w u (u.refuseOpt o .ok) := fun o u => by
    cases o with
    | none => exact .refl u
    | some q => exact .reply _ _ _ _
  exact ((Does.setRing s c Ring.initial hr).trans (told _ _)).trans
    (Does.modChan _ c (fun ch => { ch with closeTicket := none }) (.inl hc))

/-- Beside its ring and its ticket a close leaves only an answer handed over. -/
theorem dropRing_beside (s : State) (c : Nat) : (dropRing s c).rings = tset Ring.initial s.rings c Ring.initial ∧
    (dropRing s c).store = s.store ∧ (dropRing s c).sched = s.sched ∧ (dropRing s c).port = s.port := by
  unfold dropRing
  cases (s.chan c).closeTicket <;> exact ⟨rfl, rfl, rfl, rfl⟩

theorem dropRing_chan (s : State) (c : Nat) : (dropRing s c).chan c = { s.chan c with closeTicket := none } := by
  have told : ∀ (o : Option Ticket) (u : State), (u.refuseOpt o .ok).chan c = u.chan c := fun o u => by cases o <;> rfl
  exact (State.chan_modChan_self _ c _).trans (by rw [told]; rfl)

theorem dropRing_spares (h : (s.ring c).transfer = none) : Spares s (dropRing s c) := by
  obtain ⟨rings, store, sched, -⟩ := dropRing_beside s c
  have set : Spares s (s.setRing c Ring.initial) := .setRing h.symm
  exact set.trans (.blocks store sched rings)

/-- The answer to SERVICE_CLEAR changes nothing but the port and the answers handed over. -/
theorem answerClear_beside (s : State) : (answerClear s).chans = s.chans ∧ (answerClear s).rings = s.rings ∧
    (answerClear s).store = s.store ∧ (answerClear s).sched = s.sched := by
  unfold answerClear
  split
  · exact ⟨rfl, rfl, rfl, rfl⟩
  · split <;> exact ⟨rfl, rfl, rfl, rfl⟩

theorem answerClear_does {w : Touched} (s : State) : Does w s (answerClear s) := by
  have answered : ∀ u : State, Does w u { u with port := { u.port with clearWait := none } } := fun u =>
    ⟨⟨fun _ => rfl, fun _ => rfl, fun _ => rfl, fun _ => rfl, fun _ => rfl,
      fun _ => ⟨rfl, rfl, rfl, rfl, rfl, rfl, rfl, rfl, rfl, rfl⟩, fun _ => FlagsAdded.refl _ _, fun _ => rfl,
      fun i _ => ChanStands.refl u i, fun _ _ => rfl, fun m _ => LinkStands.refl u m, rfl, List.prefix_rfl⟩, rfl, List.prefix_rfl⟩
  unfold answerClear
  split
  · exact .refl s
  · exact (Does.refl s).ite ((Does.reply _ _ _ _).trans (answered _))

theorem answerClear_waits (h : anyTransfer s = true) : answerClear s = s := by
  unfold answerClear
  split
  · rfl
  · rw [if_pos h]

theorem answerClear_answers {w : ClearWait} (hw : s.port.clearWait = some w) (h : anyTransfer s = false) :
    (answerClear s).port.clearWait = none ∧
      (⟨w.ticket, .ok, false, 0, [item1 w.opened, item1 w.transfers, item2 w.aborted]⟩ : Handed) ∈ (answerClear s).handed := by
  unfold answerClear
  rw [hw]
  dsimp only
  rw [if_neg (by rw [h]; decide)]
  exact ⟨rfl, handed_reply _ _ _ _⟩

/-- A transfer in flight on some channel is listed. -/
theorem anyTransfer_of_ring {k : Nat} (h : (s.ring k).transfer.isSome = true) : anyTransfer s = true := by
  have listed : (k, s.ring k) ∈ s.rings := mem_of_tget_ne (d := Ring.initial) fun e => by
    rw [show s.ring k = Ring.initial from e] at h
    cases h
  exact List.any_eq_true.2 ⟨_, listed, h⟩

/-- In a canonical table every ring listed is the ring of its channel. -/
theorem anyTransfer_eq_false (w : twf Ring.initial s.rings = true) (h : ∀ k, (s.ring k).transfer = none) :
    anyTransfer s = false := by
  refine List.any_eq_false.2 fun r hr => ?_
  rw [← tget_of_mem (d := Ring.initial) (twf_iff.1 w).1 hr]
  exact (congrArg Option.isSome (h r.1)).trans_ne (by decide)

/-- The closing channel's transfer over and its hold released, its ring dropped and its close answered (R103). -/
def closingEnded (s : State) (c : Nat) (x : Transfer) : State :=
  dropRing (releaseHold (s.modRing c (fun r => { r with transfer := none })) x.entry) c

theorem finishClosing_eq (s : State) (c : Nat) (x : Transfer) : finishClosing s c x = answerClear (closingEnded s c x) := rfl

theorem closingEnded_rings (s : State) (c : Nat) (x : Transfer) : (closingEnded s c x).rings =
    tset Ring.initial (tset Ring.initial s.rings c { s.ring c with transfer := none }) c Ring.initial := by
  unfold closingEnded
  rw [(dropRing_beside _ c).1, releaseHold_rings]
  rfl

theorem closingEnded_ring (s : State) (c : Nat) (x : Transfer) (k : Nat) :
    (closingEnded s c x).ring k = if k = c then Ring.initial else s.ring k := by
  unfold State.ring
  rw [closingEnded_rings, tget_tset, tget_tset]
  split
  · rfl
  · rfl

theorem finishClosing_ended (hx : (s.ring c).transfer = some x) : TransferEnded s (finishClosing s c x) c x := by
  have unheld : Unheld s (s.modRing c (fun r => { r with transfer := none })) x.entry := Unheld.setRing hx rfl
  have still : ((releaseHold (s.modRing c (fun r => { r with transfer := none })) x.entry).ring c).transfer = none := by
    rw [releaseHold_ring, State.ring_modRing, if_pos rfl]
  obtain ⟨chans, rings, store, sched⟩ := answerClear_beside (closingEnded s c x)
  have ring : (answerClear (closingEnded s c x)).ring c = Ring.initial := by
    unfold State.ring at *
    rw [rings]
    exact (closingEnded_ring s c x c).trans (if_pos rfl)
  have chan : (answerClear (closingEnded s c x)).chan c = (closingEnded s c x).chan c := by unfold State.chan; rw [chans]
  rw [finishClosing_eq]
  refine unheld.ended (.setRing _ _ _ rfl) rfl ((dropRing_does _ c rfl rfl).trans (answerClear_does _))
    ((dropRing_spares still).trans (.blocks store sched rings)) (by rw [ring]; rfl) ?_
  rw [chan]
  exact congrArg (fun ch => ch.state) (dropRing_chan _ c)

end

end Sys2Proof.Machine

/-! SUPPORT. TRANSFER_END (R99, R103, R104, R183). -/

namespace Sys2Proof.Machine

section
variable {s : State} {c : Nat} {x : Transfer}

theorem endTransfer_eq (hx : (s.ring c).transfer = some x) : endTransfer s c =
    if (s.ring c).closing then finishClosing (s.emit (.frameData ((s.ring c).bufferAddress x.slot) (copiedBytes s x))) c x
    else finishTransfer (s.emit (.frameData ((s.ring c).bufferAddress x.slot) (copiedBytes s x))) c x := by
  unfold endTransfer
  rw [hx]

theorem exec_transferEnd (hx : (s.ring c).transfer = some x) :
    exec (.transferEnd c) s = .next (endEvent s (endTransfer s c)) :=
  congrArg Host.Outcome.next (if_pos (by rw [hx]; rfl))

/-- The end of a transfer, with the frame's bytes among the outputs. -/
theorem TransferEnded.emitted {y : State} {o : Output} (h : TransferEnded (s.emit o) y c x) : TransferEnded s y c x := by
  refine ⟨(Does.emit s o).trans h.does, h.transfer, h.state, fun t rest w e f hold => ?_⟩
  obtain ⟨used, unused⟩ := h.released t rest w e ⟨f.entry, f.state, f.context⟩ hold
  exact ⟨used, unused⟩

/-- What the act of TRANSFER_END leaves, whether its channel is open or closing. -/
theorem endTransfer_ended (hx : (s.ring c).transfer = some x) : TransferEnded s (endTransfer s c) c x := by
  rw [endTransfer_eq hx]
  split
  · exact (finishClosing_ended (s := s.emit _) hx).emitted
  · exact (finishTransfer_ended (s := s.emit _) hx).emitted

/-- The frame's bytes go to the slot's buffer (R98, R99). -/
theorem endTransfer_data (hx : (s.ring c).transfer = some x) :
    .frameData ((s.ring c).bufferAddress x.slot) (copiedBytes s x) ∈ outputsSince s (endTransfer s c) := by
  have data : ∀ {o : Output} {y : State}, TransferEnded (s.emit o) y c x → o ∈ outputsSince s y := fun h =>
    drop_mem_of_prefix (Does.emit (w := {}) s _).frame.out h.does.frame.out (mem_outputsSince_emit rfl)
  rw [endTransfer_eq hx]
  split
  · exact data (finishClosing_ended (s := s.emit _) hx)
  · exact data (finishTransfer_ended (s := s.emit _) hx)

/-- The record and a produce word for each taken slot (R94, R99). -/
theorem endTransfer_writes (hx : (s.ring c).transfer = some x) (hc : (s.ring c).closing = false) :
    .record ((s.ring c).recordAddress x.slot) x.record ∈ outputsSince s (endTransfer s c) ∧
      ∀ i, 1 ≤ i → i ≤ (s.ring c).taken → .produceWord (s.ring c).produceAddress ((s.ring c).produce + BitVec.ofNat 32 i) ∈
        outputsSince s (endTransfer s c) := by
  rw [endTransfer_eq hx, if_neg (by rw [hc]; decide)]
  generalize (Output.frameData ((s.ring c).bufferAddress x.slot) (copiedBytes s x)) = o
  have done : Published (s.emit o) (published (s.emit o) c x) c x := published_of_transfer hx
  have written : ∀ {p : Output}, p ∈ outputsSince (s.emit o) (published (s.emit o) c x) →
      p ∈ outputsSince s (finishTransfer (s.emit o) c x) := fun h =>
    drop_mem_of_later (Does.emit (w := {}) s o).frame.out (finishTransfer_ended (s := s.emit o) hx).does.frame.out
      (finishTransfer_writes (s := s.emit o) hx h)
  exact ⟨written done.record, fun i h1 hn => written (done.words i h1 hn)⟩

theorem endTransfer_open (hx : (s.ring c).transfer = some x) (hc : (s.ring c).closing = false) :
    ((endTransfer s c).chan c).kept = ({ s.chan c with missing := false } : Channel).kept ∧
      ((endTransfer s c).ring c).kept = (s.ring c).kept := by
  rw [endTransfer_eq hx, if_neg (by rw [hc]; decide)]
  exact finishTransfer_kept (s := s.emit _) hx

/-- What the end of a closing channel's transfer leaves, SERVICE_CLEAR yet to be answered (R103, R104). -/
structure Dropped (s y : State) (c : Nat) : Prop where
  rings : ∀ k, y.ring k = if k = c then Ring.initial else s.ring k
  wf : twf Ring.initial s.rings = true → twf Ring.initial y.rings = true
  ticket : (y.chan c).closeTicket = none
  answered : ∀ q, (s.chan c).closeTicket = some q → (⟨q, .ok, false, 0, []⟩ : Handed) ∈ y.handed
  clearWait : y.port.clearWait = s.port.clearWait

theorem closingEnded_dropped (s : State) (c : Nat) (x : Transfer) : Dropped s (closingEnded s c x) c := by
  have released := releaseHold_follows (s.modRing c (fun r => { r with transfer := none })) x.entry
  refine ⟨closingEnded_ring s c x, fun w => ?_, congrArg (fun ch => ch.closeTicket) (dropRing_chan _ c),
    fun q hq => dropRing_handed ?_, ?_⟩
  · rw [closingEnded_rings]
    exact twf_tset _ c _ (twf_tset _ c _ w)
  · exact (congrArg (fun ch => ch.closeTicket) (released.chans c)).trans hq
  · exact congrArg Port.clearWait ((dropRing_beside _ c).2.2.2.trans released.port)

theorem endTransfer_closing (hx : (s.ring c).transfer = some x) (hc : (s.ring c).closing = true) :
    ∃ y, Dropped s y c ∧ endTransfer s c = answerClear y := by
  rw [endTransfer_eq hx, if_pos hc]
  generalize (Output.frameData ((s.ring c).bufferAddress x.slot) (copiedBytes s x)) = o
  obtain ⟨rings, wf, ticket, answered, clearWait⟩ := closingEnded_dropped (s.emit o) c x
  exact ⟨closingEnded (s.emit o) c x, ⟨rings, wf, ticket, answered, clearWait⟩, rfl⟩

/-- While another transfer is in flight SERVICE_CLEAR waits on; after the last it is answered (R104, R183). -/
theorem Dropped.clear {y : State} (h : Dropped s y c) :
    ((∃ k, k ≠ c ∧ (s.ring k).transfer.isSome = true) → (answerClear y).port.clearWait = s.port.clearWait) ∧
      ∀ w, s.port.clearWait = some w → twf Ring.initial s.rings = true → (∀ k, k ≠ c → (s.ring k).transfer = none) →
        (answerClear y).port.clearWait = none ∧
          (⟨w.ticket, .ok, false, 0, [item1 w.opened, item1 w.transfers, item2 w.aborted]⟩ : Handed) ∈
            (answerClear y).handed := by
  refine ⟨fun ⟨k, other, flight⟩ => ?_, fun w hw wf none => answerClear_answers (h.clearWait.trans hw) ?_⟩
  · rw [answerClear_waits (anyTransfer_of_ring (k := k) (by rw [h.rings, if_neg other]; exact flight))]
    exact h.clearWait
  · refine anyTransfer_eq_false (h.wf wf) fun k => ?_
    rw [h.rings]
    split
    · rfl
    · rename_i other; exact none k other

theorem Dropped.ended {y : State} (h : Dropped s y c) : (answerClear y).ring c = Ring.initial ∧
    ((answerClear y).chan c).closeTicket = none ∧
      ∀ q, (s.chan c).closeTicket = some q → (⟨q, .ok, false, 0, []⟩ : Handed) ∈ (answerClear y).handed := by
  obtain ⟨chans, rings, -⟩ := answerClear_beside y
  refine ⟨?_, ?_, fun q hq => (answerClear_does (w := {}) y).handed.subset (h.answered q hq)⟩
  · unfold State.ring
    rw [rings]
    exact (h.rings c).trans (if_pos rfl)
  · unfold State.chan
    rw [chans]
    exact h.ticket

end

/-- Settles O51: the act of a transfer's end (`endTransfer_ended`) on an open channel (`endTransfer_writes`) and on a closing one
(`Dropped`), and an event's consequences, which release no user of a READY entry (`endEvent_spares`) and begin no transfer on a
channel that does not run (`endEvent_idle`). -/
theorem transferEndWritesTheRecord : Obligations.TransferEndWritesTheRecord := by
  intro s c x hx
  have ended := endTransfer_ended hx
  have h := ended.does.happens s
  have canonical : TablesHeld s → Canonical s := fun ⟨_, _, _, rings, entries, _⟩ => ⟨entries, rings⟩
  have written : ∀ {o : Output}, o ∈ outputsSince s (endTransfer s c) → o ∈ outputsSince s (endEvent s (endTransfer s c)) :=
    fun ho => h.ends.outputs ho ended.does.frame.out
  refine ⟨endEvent s (endTransfer s c), exec_transferEnd hx, h.frame, written (endTransfer_data hx),
    fun still => (endEvent_idle s _ (ended.state still)).trans ended.transfer,
    fun tables e entry ready hold context =>
      ended.released _ (endEvent_spares s _) (canonical tables) e ⟨entry, ready, context⟩ hold,
    fun opened => ?_, fun closing => ?_⟩
  · obtain ⟨record, words⟩ := endTransfer_writes hx opened
    obtain ⟨chan, ring⟩ := endTransfer_open hx opened
    exact ⟨written record, fun i h1 hn => written (words i h1 hn), (h.ends.chans c).trans chan, (h.ends.rings c).trans ring⟩
  · obtain ⟨y, dropped, eq⟩ := endTransfer_closing hx closing
    obtain ⟨ring, ticket, told⟩ := dropped.ended
    obtain ⟨waits, answers⟩ := dropped.clear
    rw [eq] at h ⊢
    refine ⟨(h.ends.rings c).trans (by rw [ring]; rfl), (h.field (ch := (answerClear y).chan c) rfl (·.closeTicket)).trans ticket,
      fun q hq => h.answered (told q hq), fun other => h.ends.clearWait.trans (waits other), fun w hw wf none => ?_⟩
    obtain ⟨cleared, answer⟩ := answers w hw wf none
    exact ⟨h.ends.clearWait.trans cleared, h.answered answer⟩

end Sys2Proof.Machine

/-! SUPPORT. What every act keeps of the tables, the store pages and store memory: a table in canonical form stays so, free pages
and the pages held by entries keep their balance (R105), and no byte of store memory is written. `Books` says it of an act. -/

namespace Sys2Proof.Machine

/-! ## Acts that keep the books -/

/-- The tables, the free pages and store memory: what the books go by. -/
def State.books (s : State) :=
  (s.map.clips, s.views, s.chans, s.rings, s.store.entries, s.store.pins, s.sched.contexts, s.links, s.volumes, s.time.waits,
    s.port.chanNotices, s.store.freePages, s.store.memory)

/-- An act that keeps the canonical forms, those of the entry records by themselves, and writes no byte of store memory. -/
structure Forms (s t : State) : Prop where
  tables : TablesHeld s → TablesHeld t
  entries : twf none s.store.entries = true → twf none t.store.entries = true
  memory : t.store.memory = s.store.memory

/-- An act that keeps the third law (R105) too. -/
structure Books (s t : State) : Prop extends Forms s t where
  pages : twf none s.store.entries = true → PagesHeld s → PagesHeld t

theorem pagesHeld_congr {s t : State} (he : t.store.entries = s.store.entries) (hf : t.store.freePages = s.store.freePages) :
    PagesHeld t ↔ PagesHeld s := by
  unfold PagesHeld pagesHeld State.entry
  rw [he, hf]

theorem Forms.trans {s t u : State} (a : Forms s t) (b : Forms t u) : Forms s u :=
  ⟨fun h => b.tables (a.tables h), fun h => b.entries (a.entries h), b.memory.trans a.memory⟩

theorem Forms.foldl {α : Type} {f : State → α → State} (h : ∀ s a, Forms s (f s a)) (l : List α) (s : State) :
    Forms s (l.foldl f s) := by
  induction l generalizing s with
  | nil => exact ⟨id, id, rfl⟩
  | cons a l ih => exact (h s a).trans (ih _)

/-- Any write of the entry records in canonical form. -/
theorem Forms.ofEntries (s : State) (x : Tab (Option Entry)) (h : twf none s.store.entries = true → twf none x = true) :
    Forms s { s with store := { s.store with entries := x } } :=
  ⟨fun ⟨clips, views, chans, rings, entries, rest⟩ => ⟨clips, views, chans, rings, h entries, rest⟩, h, rfl⟩

theorem Forms.setEntry (s : State) (id : Nat) (o : Option Entry) : Forms s (s.setEntry id o) := .ofEntries s _ (twf_tset _ _ _)

/-- Any count of free pages. -/
theorem Forms.freePages (s : State) (n : Nat) : Forms s { s with store := { s.store with freePages := n } } := ⟨id, id, rfl⟩

namespace Books
variable {s t u : State}

theorem refl (s : State) : Books s s := ⟨⟨id, id, rfl⟩, fun _ => id⟩

theorem trans (a : Books s t) (b : Books t u) : Books s u :=
  ⟨a.toForms.trans b.toForms, fun w h => b.pages (a.entries w) (a.pages w h)⟩

/-- An act may keep the third law for a reason that the law itself gives. -/
theorem held (f : Forms s t) (h : twf none s.store.entries = true → PagesHeld s → Books s t) : Books s t :=
  ⟨f, fun w p => (h w p).pages w p⟩

theorem ite {p : Prop} [Decidable p] (a : Books s t) (b : Books s u) : Books s (if p then t else u) := by
  split <;> assumption

/-- A further act, under a condition. -/
theorem when {p : Prop} [Decidable p] {f : State → State} (a : Books s t) (h : ∀ x, Books x (f x)) :
    Books s (if p then f t else t) := (a.trans (h t)).ite a

theorem foldl {α : Type} {f : State → α → State} (h : ∀ s a, Books s (f s a)) (l : List α) (s : State) :
    Books s (l.foldl f s) := by
  induction l generalizing s with
  | nil => exact refl s
  | cons a l ih => exact (h s a).trans (ih _)

theorem times {f : State → State} (h : ∀ s, Books s (f s)) (n : Nat) (s : State) : Books s (times f n s) := by
  induction n generalizing s with
  | zero => exact refl s
  | succ n ih => exact (h s).trans (ih _)

/-- An act that writes nothing the books go by. -/
theorem same (h : t.books = s.books) : Books s t := by
  simp only [State.books, Prod.mk.injEq] at h
  obtain ⟨clips, views, chans, rings, entries, pins, contexts, links, volumes, waits, notices, free, memory⟩ := h
  refine ⟨⟨fun h => ?_, fun h => entries ▸ h, memory⟩, fun _ => (pagesHeld_congr entries free).2⟩
  unfold TablesHeld at *
  rw [clips, views, chans, rings, entries, pins, contexts, links, volumes, waits, notices]
  exact h

/-- An act that writes tables, and not the entry records. -/
theorem ofTables (h : TablesHeld s → TablesHeld t) (entries : t.store.entries = s.store.entries)
    (free : t.store.freePages = s.store.freePages) (memory : t.store.memory = s.store.memory) : Books s t :=
  ⟨⟨h, fun w => entries ▸ w, memory⟩, fun _ => (pagesHeld_congr entries free).2⟩

theorem ofClips (s : State) (x : Tab Clip) (h : twf Clip.initial s.map.clips = true → twf Clip.initial x = true) :
    Books s { s with map := { s.map with clips := x } } :=
  ofTables (fun ⟨clips, rest⟩ => ⟨h clips, rest⟩) rfl rfl rfl

theorem ofViews (s : State) (x : Tab View) (h : twf View.initial s.views = true → twf View.initial x = true) :
    Books s { s with views := x } :=
  ofTables (fun ⟨clips, views, rest⟩ => ⟨clips, h views, rest⟩) rfl rfl rfl

theorem ofChans (s : State) (x : Tab Channel) (h : twf Channel.initial s.chans = true → twf Channel.initial x = true) :
    Books s { s with chans := x } :=
  ofTables (fun ⟨clips, views, chans, rest⟩ => ⟨clips, views, h chans, rest⟩) rfl rfl rfl

theorem ofRings (s : State) (x : Tab Ring) (h : twf Ring.initial s.rings = true → twf Ring.initial x = true) :
    Books s { s with rings := x } :=
  ofTables (fun ⟨clips, views, chans, rings, rest⟩ => ⟨clips, views, chans, h rings, rest⟩) rfl rfl rfl

theorem ofPins (s : State) (x : Tab Pin) (h : twf Pin.initial s.store.pins = true → twf Pin.initial x = true) :
    Books s { s with store := { s.store with pins := x } } :=
  ofTables (fun ⟨clips, views, chans, rings, entries, pins, rest⟩ => ⟨clips, views, chans, rings, entries, h pins, rest⟩) rfl rfl
    rfl

theorem ofContexts (s : State) (x : Tab (Option Context)) (h : twf none s.sched.contexts = true → twf none x = true) :
    Books s { s with sched := { s.sched with contexts := x } } :=
  ofTables (fun ⟨clips, views, chans, rings, entries, pins, contexts, rest⟩ =>
    ⟨clips, views, chans, rings, entries, pins, h contexts, rest⟩) rfl rfl rfl

theorem ofLinks (s : State) (x : Tab Link) (h : twf Link.initial s.links = true → twf Link.initial x = true) :
    Books s { s with links := x } :=
  ofTables (fun ⟨clips, views, chans, rings, entries, pins, contexts, links, rest⟩ =>
    ⟨clips, views, chans, rings, entries, pins, contexts, h links, rest⟩) rfl rfl rfl

theorem ofVolumes (s : State) (x : Tab Volume) (h : twf Volume.initial s.volumes = true → twf Volume.initial x = true) :
    Books s { s with volumes := x } :=
  ofTables (fun ⟨clips, views, chans, rings, entries, pins, contexts, links, volumes, rest⟩ =>
    ⟨clips, views, chans, rings, entries, pins, contexts, links, h volumes, rest⟩) rfl rfl rfl

theorem ofWaits (s : State) (x : Tab (Option Nat)) (h : twf none s.time.waits = true → twf none x = true) :
    Books s { s with time := { s.time with waits := x } } :=
  ofTables (fun ⟨clips, views, chans, rings, entries, pins, contexts, links, volumes, waits, notices⟩ =>
    ⟨clips, views, chans, rings, entries, pins, contexts, links, volumes, h waits, notices⟩) rfl rfl rfl

theorem ofNotices (s : State) (x : Tab NoticeSet) (h : twf NoticeSet.initial s.port.chanNotices = true → twf NoticeSet.initial x = true) :
    Books s { s with port := { s.port with chanNotices := x } } :=
  ofTables (fun ⟨clips, views, chans, rings, entries, pins, contexts, links, volumes, waits, notices⟩ =>
    ⟨clips, views, chans, rings, entries, pins, contexts, links, volumes, waits, h notices⟩) rfl rfl rfl

theorem setClip (s : State) (h : Nat) (c : Clip) : Books s (s.setClip h c) := ofClips s _ (twf_tset _ _ _)
theorem setView (s : State) (v : Nat) (w : View) : Books s (s.setView v w) := ofViews s _ (twf_tset _ _ _)
theorem setChan (s : State) (c : Nat) (ch : Channel) : Books s (s.setChan c ch) := ofChans s _ (twf_tset _ _ _)
theorem modChan (s : State) (c : Nat) (f : Channel → Channel) : Books s (s.modChan c f) := setChan s c _
theorem setRing (s : State) (c : Nat) (r : Ring) : Books s (s.setRing c r) := ofRings s _ (twf_tset _ _ _)
theorem modRing (s : State) (c : Nat) (f : Ring → Ring) : Books s (s.modRing c f) := setRing s c _
theorem setPin (s : State) (p : Nat) (q : Pin) : Books s (s.setPin p q) := ofPins s _ (twf_tset _ _ _)
theorem setContext (s : State) (id : Nat) (o : Option Context) : Books s (s.setContext id o) := ofContexts s _ (twf_tset _ _ _)
theorem modContext (s : State) (id : Nat) (f : Context → Context) : Books s (s.modContext id f) := setContext s id _
theorem modLink (s : State) (m : Nat) (f : Link → Link) : Books s (s.modLink m f) := ofLinks s _ (twf_tset _ _ _)
theorem setVolume (s : State) (v : Nat) (w : Volume) : Books s (s.setVolume v w) := ofVolumes s _ (twf_tset _ _ _)

/-- A write of a channel's start wait (R167). -/
theorem setWait (s : State) (c : Nat) (o : Option Nat) :
    Books s { s with time := { s.time with waits := tset none s.time.waits c o } } := ofWaits s _ (twf_tset _ _ _)

theorem emit (s : State) (o : Output) : Books s (s.emit o) := same rfl
theorem replyDetail (s : State) (t : Ticket) (r : Result) (d : BitVec 8) (is : List Item) : Books s (s.replyDetail t r d is) := same rfl
theorem reply (s : State) (t : Ticket) (r : Result) (is : List Item) : Books s (s.reply t r is) := same rfl
theorem refuse (s : State) (t : Ticket) (r : Result) : Books s (s.refuse t r) := same rfl
theorem refuseRange (s : State) (t : Ticket) (n : Nat) : Books s (s.refuseRange t n) := same rfl
theorem refuseEmptyClip (s : State) (t : Ticket) : Books s (s.refuseEmptyClip t) := same rfl
theorem refuseOpt (s : State) (t : Option Ticket) (r : Result) : Books s (s.refuseOpt t r) := by
  cases t with
  | none => exact refl s
  | some t => exact refuse s t r

end Books

/-! ## Entry records and their pages -/

/-- An entry's pages, and what its holding of pages goes by (R106). -/
def Entry.holding (e : Entry) := (e.pages, e.state, e.granted)

/-- An entry that holds pages is READY, or GRANTED and FILLING (R106). -/
def Entry.Lawful (e : Entry) : Prop := e.pages ≠ [] → e.state = .ready ∨ (e.state = .filling ∧ e.granted = true)

theorem Entry.lawful_of_nil {e : Entry} (h : e.pages = []) : e.Lawful := fun ne => absurd h ne

theorem pagesHeld_iff {s : State} : PagesHeld s ↔
    s.store.freePages + pagesHeld s = Config.storePages ∧ ∀ id e, s.entry id = some e → e.Lawful := Iff.rfl

/-- Under the third law an entry that is neither READY nor GRANTED and FILLING holds no page. -/
theorem PagesHeld.pages_eq_nil {s : State} (h : PagesHeld s) {id : Nat} {e : Entry} (he : s.entry id = some e)
    (hr : e.state ≠ .ready) (hg : e.state = .filling → e.granted = false) : e.pages = [] := by
  by_contra ne
  rcases h.2 id e he ne with r | ⟨f, g⟩
  · exact hr r
  · rw [hg f] at g; cases g

namespace Books
variable {s t u : State}

/-- A write of one entry record and of the free pages that keeps their balance. -/
theorem setEntryFree {id : Nat} {o : Option Entry} {free : Nat}
    (h : twf none s.store.entries = true → PagesHeld s → free + pagesOf o = s.store.freePages + pagesOf (s.entry id) ∧
      ∀ e, o = some e → e.Lawful) :
    Books s { s.setEntry id o with store := { (s.setEntry id o).store with freePages := free } } where
  toForms := (Forms.setEntry s id o).trans (Forms.freePages _ free)
  pages w held := by
    obtain ⟨balance, lawful⟩ := h w held
    have sum := sumOf_tset (d := (none : Option Entry)) (f := pagesOf) rfl (twf_iff.1 w).1 id o
    refine ⟨?_, fun j e he => ?_⟩
    · have total := held.1
      unfold pagesHeld State.entry at *
      show free + sumOf (fun c => pagesOf c.2) (tset none s.store.entries id o) = Config.storePages
      omega
    · have he : (s.setEntry id o).entry j = some e := he
      rw [State.entry_setEntry] at he
      split at he
      · exact lawful e he
      · exact held.2 j e he

/-- A write of one entry record that holds as many pages as the record before it. -/
theorem setEntry {id : Nat} {o : Option Entry} (h : twf none s.store.entries = true → PagesHeld s →
    pagesOf o = pagesOf (s.entry id) ∧ ∀ e, o = some e → e.Lawful) : Books s (s.setEntry id o) :=
  setEntryFree (free := s.store.freePages) fun w held => by
    obtain ⟨same, lawful⟩ := h w held
    exact ⟨by rw [same], lawful⟩

/-- A change of an entry record in use that leaves its pages. -/
theorem modEntry {id : Nat} {f : Entry → Entry} (hp : ∀ e, (f e).pages = e.pages)
    (hl : PagesHeld s → ∀ e, s.entry id = some e → e.Lawful → (f e).Lawful) : Books s (s.modEntry id f) :=
  setEntry fun _ held => by
    cases he : s.entry id with
    | none => exact ⟨rfl, nofun⟩
    | some e => exact ⟨congrArg List.length (hp e), fun x hx => by cases hx; exact hl held e he (held.2 id e he)⟩

/-- A change of an entry's counts. -/
theorem counted (s : State) (id : Nat) (f : Entry → Entry) (h : ∀ e, (f e).holding = e.holding) : Books s (s.modEntry id f) := by
  simp only [Entry.holding, Prod.mk.injEq] at h
  exact modEntry (fun e => (h e).1) fun _ e _ lawful ne => by
    obtain ⟨pages, state, granted⟩ := h e
    rw [state, granted]
    exact lawful (pages ▸ ne)

/-- A change of every entry record that leaves its pages and its state. -/
theorem mapEntries (s : State) (f : Nat → Entry → Entry) (h : ∀ id e, (f id e).holding = e.holding) :
    Books s { s with store := { s.store with entries := tmap (fun id o => o.map (f id)) s.store.entries } } where
  toForms := .ofEntries s _ fun w => twf_tmap (fun k v hv => by simpa using hv) w
  pages _ held := by
    simp only [Entry.holding, Prod.mk.injEq] at h
    have sum : sumOf (fun c => pagesOf c.2) (tmap (fun id o => o.map (f id)) s.store.entries) = pagesHeld s := by
      unfold pagesHeld
      rw [sumOf_eq_sum, sumOf_eq_sum, tmap, List.map_map]
      refine congrArg List.sum (List.map_congr_left fun c _ => ?_)
      cases hc : c.2 with
      | none => simp [pagesOf, hc]
      | some e => simp [pagesOf, hc, (h c.1 e).1]
    refine ⟨(congrArg (s.store.freePages + ·) sum).trans held.1, fun id e he => ?_⟩
    have each : (s.entry id).map (f id) = some e := (tget_tmap _ (fun id o => Option.map (f id) o) s.store.entries id rfl).symm.trans he
    obtain ⟨x, hx, rfl⟩ := Option.map_eq_some_iff.1 each
    obtain ⟨pages, state, granted⟩ := h id x
    rw [pages, state, granted]
    exact held.2 id x hx

end Books

/-! ## The Read Scheduler -/

/-- A list entry's status is no part of a channel's reset record. -/
theorem tellReferrers_books (s : State) (id : Nat) (st : ListStatus) : Books s (tellReferrers s id st) := by
  refine .ofChans s _ fun h => ?_
  refine twf_tmap (fun _ ch ne e => ne ?_) h
  have empty : ch.list = [] := List.map_eq_nil_iff.1 (congrArg Channel.list e)
  rw [← e, empty]
  cases ch
  cases empty
  rfl

theorem stampEntry_books (s : State) (id : Nat) : Books s (stampEntry s id) :=
  (Books.counted s id (fun e => { e with stamp := s.store.stamps }) fun _ => rfl).trans (.same rfl)

theorem stampIfUnused_books (s : State) (id : Nat) : Books s (stampIfUnused s id) := by
  unfold stampIfUnused
  split
  · exact (stampEntry_books s id).ite (.refl s)
  · exact .refl s

/-- The pages of an entry go over to the free pages. -/
theorem returnPages_books (s : State) (id : Nat) : Books s (returnPages s id) := by
  unfold returnPages
  split
  · rename_i e he
    refine Books.setEntryFree fun _ _ => ⟨by rw [he]; rfl, fun x hx => ?_⟩
    cases hx
    exact Entry.lawful_of_nil rfl
  · exact .refl s

/-- The pages of an entry record once they are given back. -/
theorem pagesOf_returnPages (s : State) (id : Nat) : pagesOf ((returnPages s id).entry id) = 0 := by
  unfold returnPages
  split
  · rename_i e he
    show pagesOf ((s.setEntry id (some { e with pages := [] })).entry id) = 0
    rw [State.entry_setEntry, if_pos rfl]
    rfl
  · rename_i he
    rw [he]
    rfl

theorem pagesOf_eq_zero {o : Option Entry} : pagesOf o = 0 ↔ ∀ e, o = some e → e.pages = [] := by
  cases o with
  | none => simp [pagesOf]
  | some e => simp [pagesOf]

theorem freeEntry_books (s : State) (id : Nat) : Books s (freeEntry s id) :=
  (returnPages_books s id).trans (Books.setEntry fun _ _ => ⟨(pagesOf_returnPages s id).symm, nofun⟩)

theorem dropRead_books (s : State) (r : UnitRead) : Books s (dropRead s r) := .same rfl

theorem modPiece_books (s : State) (id i : Nat) (f : FillPiece → FillPiece) : Books s (modPiece s id i f) := .modContext s id _

theorem makeSet_books (s : State) (id i : Nat) (p : Piece) : Books s (makeSet s id i p) :=
  (Books.foldl (f := fun s m => makeRead s id i p true m) (fun _ _ => .same rfl) p.others s).trans (modPiece_books _ _ _ _)

theorem gatherOne_books (s : State) (id i : Nat) : Books s (gatherOne s id i) := by
  unfold gatherOne
  split
  · split
    · exact (makeSet_books _ _ _ _).ite (modPiece_books _ _ _ _)
    · exact .refl s
  · exact .refl s

theorem releaseLoose_books (s : State) : Books s (releaseLoose s) := by
  unfold releaseLoose
  split
  · exact gatherOne_books _ _ _
  · exact .same rfl

theorem releaseMany_books (s : State) (n : Nat) : Books s (releaseMany s n) := .times releaseLoose_books n s

theorem releaseWithin_books (s : State) (id : Nat) : Books s (releaseWithin s id) := by
  unfold releaseWithin
  split
  · split
    · exact gatherOne_books _ _ _
    · exact (Books.modContext s id _).ite (releaseLoose_books s)
  · exact releaseLoose_books s

theorem cancelContext_books (s : State) (id : Nat) (f : Option Context → Option Context) : Books s (cancelContext s id f).1 :=
  Books.trans (t := { s with sched := { s.sched with
    reads := s.sched.reads.filter (fun r => !(r.context == id && !r.detached && r.issue.isNone)) } }) (.same rfl) (.setContext _ id _)

theorem closeContext_books (s : State) (id : Nat) : Books s (closeContext s id) :=
  (cancelContext_books s id fun _ => none).trans <|
    Books.trans (t := detachReads (cancelContext s id fun _ => none).1 id) (.same rfl) (releaseMany_books _ _)

/-- A failed entry has given its pages back (R112). -/
theorem failEntry_books (s : State) (id : Nat) (r : FailReason) : Books s (failEntry s id r) := by
  have none := pagesOf_eq_zero.1 (pagesOf_returnPages s id)
  have failed : Books s ((returnPages s id).modEntry id (fun e => { e with state := .failed r })) :=
    (returnPages_books s id).trans (.modEntry (fun _ => rfl) fun _ e he _ => Entry.lawful_of_nil (none e he))
  exact ((failed.trans (tellReferrers_books _ id _)).trans (closeContext_books _ id)).trans (stampIfUnused_books _ id)

theorem convert_books (s : State) (id i own : Nat) : Books s (convert s id i own) := by
  have spend : ∀ n m, Books s { s.modContext id (fun c => { c with reserve := c.reserve - n }) with
      sched := { (s.modContext id (fun c => { c with reserve := c.reserve - n })).sched with freeRecords := m } } := fun n m =>
    (Books.modContext s id _).trans (.same rfl)
  unfold convert
  split
  · exact ((spend _ _).trans (makeSet_books _ _ _ _)).ite (((spend _ _).trans (modPiece_books _ _ _ _)).trans (.same rfl))
  · exact .refl s

theorem handOne_books {s t : State} {id : Nat} (h : handOne s id = some t) : Books s t := by
  have spend : ∀ n, Books s (s.modContext id (fun c => { c with reserve := c.reserve - n })) := fun n => .modContext s id _
  unfold handOne at h
  repeat' (first | split at h | dsimp only at h)
  all_goals first
    | (cases h; done)
    | (simp only [Option.some.injEq] at h; subst h)
  · exact (spend _).trans (makeSet_books _ _ _ _)
  · exact failEntry_books _ _ _
  · exact ((spend _).trans (.same (t := makeRead _ _ _ _ _ _) rfl)).trans (modPiece_books _ _ _ _)
  · exact convert_books _ _ _ _
  · exact failEntry_books _ _ _

theorem spillReserve_books {s t : State} {id : Nat} (h : spillReserve s id = some t) : Books s t := by
  unfold spillReserve at h
  split at h
  · cases h
  · split at h
    · cases h
    · cases h
      exact (Books.modContext s id _).trans (releaseMany_books _ _)

theorem handStep_books {s t : State} (h : handStep s = some t) : Books s t := by
  obtain ⟨c, -, hc⟩ := firstSome_mem h
  split at hc
  · rename_i s' hs
    cases hc
    exact handOne_books hs
  · exact spillReserve_books hc

theorem readyEntry_books (s : State) (id : Nat) : Books s (readyEntry s id) :=
  (((Books.modEntry (f := fun e => { e with state := .ready }) (fun _ => rfl) fun _ _ _ _ _ => .inl rfl).trans
    (tellReferrers_books _ id _)).trans (closeContext_books _ id)).trans (stampIfUnused_books _ id)

theorem completePiece_books (s : State) (id : Nat) : Books s (completePiece s id) := by
  have fewer : Books s (s.modEntry id (fun e => { e with outstanding := e.outstanding - 1 })) :=
    .counted s id _ fun _ => rfl
  unfold completePiece
  dsimp only
  split
  · exact fewer.when fun x => readyEntry_books x id
  · exact fewer

theorem readLost_books (s : State) (r : UnitRead) (q : FillPiece) : Books s (readLost s r q) :=
  (convert_books _ _ _ _).ite ((failEntry_books _ _ _).trans (releaseMany_books _ _))

theorem loseQueued_books (s : State) (r : UnitRead) : Books s (loseQueued s r) := by
  have drop := dropRead_books s r
  unfold loseQueued
  dsimp only
  split
  · exact (drop.trans (convert_books _ _ _ _)).ite ((drop.trans (failEntry_books _ _ _)).trans (releaseMany_books _ _))
  · exact drop.trans (releaseMany_books _ _)

theorem loseQueue_books (m n : Nat) (s : State) : Books s (loseQueue m n s) := by
  induction n generalizing s with
  | zero => exact .refl s
  | succ n ih =>
    unfold loseQueue
    split
    · exact (loseQueued_books s _).trans (ih _)
    · exact .refl s

theorem failConverting_books (s : State) (m : Nat) : Books s (failConverting s m) := by
  unfold failConverting
  refine Books.foldl (fun x c => ?_) _ s
  split
  · exact failEntry_books _ _ _
  · exact .refl x

theorem leaveOnline_books (s : State) (m : Nat) : Books s (leaveOnline s m) :=
  (loseQueue_books m _ s).trans (failConverting_books _ m)

theorem reschedule_books (s : State) (x : Sched) (h : x.contexts = s.sched.contexts) : Books s { s with sched := x } :=
  .same (by simp only [State.books, h])

theorem sendRead_books (s : State) (m : Nat) (f : Link → Link) (x : Sched) (h : x.contexts = s.sched.contexts) (o : Output) :
    Books s ((State.modLink { s with sched := x } m f).emit o) :=
  ((reschedule_books s x h).trans (.modLink _ m f)).trans (.emit _ o)

theorem issueOne_books {s t : State} {m : Nat} (h : issueOne s m = some t) : Books s t := by
  unfold issueOne at h
  split at h
  · split at h
    · cases h
    · split at h
      · cases h
      · simp only [Option.some.injEq] at h
        subst h
        refine sendRead_books s m _ _ ?_ _
        rfl
  · cases h

theorem issueStep_books {s t : State} (h : issueStep s = some t) : Books s t := by
  obtain ⟨m, -, hm⟩ := firstSome_mem h
  exact issueOne_books hm

end Sys2Proof.Machine

/-! SUPPORT. The books through the Frame Store, the read-ahead lists and the Delivery Engine (R105, R109, R111, R124). -/

namespace Sys2Proof.Machine

/-! ## The Frame Store -/

theorem reclaimOne_books (s : State) : Books s (reclaimOne s) := by
  unfold reclaimOne
  split
  · exact freeEntry_books _ _
  · exact .refl s

theorem endOverload_books (s : State) : Books s (endOverload s) := by
  unfold endOverload
  exact Books.trans (t := { s with store := { s.store with overload := false } }) (.same rfl)
    (.foldl (fun s (c : Nat × Channel) => .modChan s c.1 _) _ _)

theorem judgeOverload_books {s t : State} (h : judgeOverload s = some t) : Books s t := by
  rcases judgeOverload_cases h with ⟨-, -, rfl⟩ | ⟨-, -, rfl⟩
  · exact endOverload_books s
  · exact .same rfl

theorem overloadJudged_books (s : State) : Books s (overloadJudged s) := by
  unfold overloadJudged
  cases h : judgeOverload s with
  | none => exact .refl s
  | some t => exact judgeOverload_books h

theorem freeRecord_books (s : State) : Books s (freeRecord s).1 := by
  unfold freeRecord
  dsimp only
  split
  · exact .refl s
  · exact reclaimOne_books s

/-- The record chosen for a new entry is the lowest one unused in the state it is made in. -/
theorem freeRecord_lowest (s : State) : (freeRecord s).2 = firstGap 0 (freeRecord s).1.store.entries := by
  unfold freeRecord
  dsimp only
  split <;> rfl

/-- A new entry holds no page. -/
theorem newEntry_pages (s : State) (k : Key) (v : Nat) (l : Location) (a : Nat) : (newEntry s k v l a).pages = [] := by
  unfold newEntry
  dsimp only
  split <;> rfl

theorem findOrAdmit_books (s : State) (k : Key) (v : Nat) (l : Location) : Books s (findOrAdmit s k v l).1 := by
  unfold findOrAdmit
  split
  · exact .refl s
  · refine ((freeRecord_books s).trans (Books.setEntry (id := (freeRecord s).2)
      (o := some (newEntry s k v l s.store.arrivals)) fun w _ => ⟨?_, fun e he => ?_⟩)).trans (.same rfl)
    · have unused : (freeRecord s).1.entry (freeRecord s).2 = none :=
        freeRecord_lowest s ▸ tget_of_unlisted (firstGap_unlisted (twf_iff.1 w).1)
      rw [unused]
      exact congrArg List.length (newEntry_pages ..)
    · cases he
      exact Entry.lawful_of_nil (newEntry_pages ..)

theorem addRef_books (s : State) (id : Nat) : Books s (addRef s id) :=
  (Books.counted s id (fun e => { e with refs := e.refs + 1 }) fun _ => rfl).trans (overloadJudged_books _)
theorem addPin_books (s : State) (id : Nat) : Books s (addPin s id) :=
  (Books.counted s id (fun e => { e with pins := e.pins + 1 }) fun _ => rfl).trans (overloadJudged_books _)
theorem addHold_books (s : State) (id : Nat) : Books s (addHold s id) := .counted s id _ fun _ => rfl

theorem abandon_books (s : State) (id : Nat) : Books s (abandon s id) := by
  unfold abandon
  dsimp only
  generalize hx : cancelContext (returnPages s id) id (Option.map fun _ => (⟨[], 0, true⟩ : Context)) = x
  have cancelled : SchedOnly (returnPages s id) (releaseMany x.1 x.2) := by
    have cancel : SchedOnly (returnPages s id) x.1 := by subst hx; rfl
    exact cancel.trans (releaseMany_sched _ _)
  have books : Books s (releaseMany x.1 x.2) := by
    subst hx
    exact ((returnPages_books s id).trans (cancelContext_books _ id _)).trans (releaseMany_books _ _)
  split
  · exact books.trans ((Books.setContext _ id none).trans (freeEntry_books _ id))
  · refine books.trans (.modEntry (fun _ => rfl) fun _ e he _ => Entry.lawful_of_nil ?_)
    exact pagesOf_eq_zero.1 (pagesOf_returnPages s id) e ((cancelled.entry id).symm.trans he)

theorem settlePlace_books (s : State) (id : Nat) : Books s (settlePlace s id) := by
  unfold settlePlace
  split
  · exact .refl s
  · split
    · exact ((abandon_books _ _).ite (freeEntry_books _ _)).ite (.refl s)
    · exact .refl s
    · exact ((freeEntry_books _ _).ite (stampEntry_books _ _)).ite (.refl s)

theorem lowerCount_books (s : State) (id : Nat) (f : Entry → Entry) (h : ∀ e, (f e).holding = e.holding) :
    Books s (lowerCount s id f) :=
  ((Books.counted s id f h).trans (settlePlace_books _ _)).trans (overloadJudged_books _)

theorem releaseRef_books (s : State) (id : Nat) : Books s (releaseRef s id) := lowerCount_books s id _ fun _ => rfl
theorem releasePin_books (s : State) (id : Nat) : Books s (releasePin s id) := lowerCount_books s id _ fun _ => rfl
theorem releaseHold_books (s : State) (id : Nat) : Books s (releaseHold s id) := lowerCount_books s id _ fun _ => rfl

/-! ## The pages of a grant (R111) -/

/-- Enough numbers searched yield as many pages as are wanted: each number held stops the search at most once. -/
theorem length_pickPages {held : List Nat} {fuel p n : Nat} (h : n + (held.filter (p ≤ ·)).length ≤ fuel) :
    (pickPages held fuel p n).length = n := by
  induction fuel generalizing p n with
  | zero =>
    have : n = 0 := by omega
    subst this
    rfl
  | succ fuel ih =>
    cases n with
    | zero => rfl
    | succ n =>
      have above : held.filter (p + 1 ≤ ·) = (held.filter (p ≤ ·)).filter (p + 1 ≤ ·) := by
        rw [List.filter_filter]
        exact List.filter_congr fun a _ => by simp; omega
      have fewer : (held.filter (p + 1 ≤ ·)).length ≤ (held.filter (p ≤ ·)).length := above ▸ List.length_filter_le _ _
      unfold pickPages
      split
      · rename_i taken
        have less : (held.filter (p + 1 ≤ ·)).length < (held.filter (p ≤ ·)).length := by
          rw [above, List.length_filter_lt_length_iff_exists]
          exact ⟨p, List.mem_filter.2 ⟨by simpa using taken, by simp⟩, by simp⟩
        exact ih (by omega)
      · rw [List.length_cons, ih (by omega)]

theorem length_choosePages (s : State) (need : Nat) : (choosePages s need).length = need :=
  length_pickPages (Nat.add_le_add_left (List.length_filter_le _ _) _)

theorem freeEntry_entries {s : State} (w : twf none s.store.entries = true) (id : Nat) :
    (freeEntry s id).store.entries = (s.setEntry id none).store.entries :=
  twf_ext ((freeEntry_books s id).entries w) ((Forms.setEntry s id none).entries w) fun j => by
    show (freeEntry s id).entry j = (s.setEntry id none).entry j
    rw [State.entry_setEntry]
    split
    · rename_i e; rw [e, freeEntry_entry]
    · rename_i ne; exact (freeEntry_touches s id).entries j ne

/-- A sum over the entry records once one of them is freed. -/
theorem sumOf_freeEntry {f : Option Entry → Nat} (hf : f none = 0) {s : State} (w : twf none s.store.entries = true) (id : Nat) :
    sumOf (fun c => f c.2) (freeEntry s id).store.entries + f (s.entry id) = sumOf (fun c => f c.2) s.store.entries := by
  rw [freeEntry_entries w]
  exact (sumOf_tset hf (twf_iff.1 w).1 id none).trans (by rw [hf, Nat.add_zero])

/-- What an entry record adds to a total over the reclaim list. -/
def reclaimWeight (v : Entry → Nat) (o : Option Entry) : Nat := o.elim 0 fun e => if e.reclaimable then v e else 0

theorem reclaimWeight_total (s : State) (v : Entry → Nat) : sumOf (fun x => v x.2) (entriesWhere s Entry.reclaimable) =
    sumOf (fun c => reclaimWeight v c.2) s.store.entries := by
  rw [sumOf_entriesWhere, sumOf_eq_sum]
  rfl

theorem freePages_freeEntry (s : State) (id : Nat) :
    (freeEntry s id).store.freePages = s.store.freePages + pagesOf (s.entry id) := by
  unfold freeEntry returnPages
  split
  · rename_i e he
    rw [he]
    rfl
  · rename_i he
    rw [he]
    rfl

theorem bestBy_eq_none {α : Type} {lt : α → α → Bool} {l : List α} (h : bestBy lt l = none) : l = [] := by
  cases l with
  | nil => rfl
  | cons a l =>
    simp only [bestBy] at h
    split at h
    · cases h
    · split at h <;> cases h

/-- One reclaim: the head of the list goes, and its pages are free. -/
theorem reclaimOne_frees {s : State} (w : twf none s.store.entries = true) (listed : entriesWhere s Entry.reclaimable ≠ []) :
    availablePages (reclaimOne s) = availablePages s ∧
      (entriesWhere (reclaimOne s) Entry.reclaimable).length + 1 = (entriesWhere s Entry.reclaimable).length := by
  unfold reclaimOne
  split
  · rename_i id e head
    obtain ⟨he, reclaimable⟩ := (mem_entriesWhere w).1 (bestBy_mem head)
    have weight : ∀ v : Entry → Nat, sumOf (fun x => v x.2) (entriesWhere (freeEntry s id) Entry.reclaimable) + v e =
        sumOf (fun x => v x.2) (entriesWhere s Entry.reclaimable) := fun v => by
      have := sumOf_freeEntry (f := reclaimWeight v) rfl w id
      rw [he, ← reclaimWeight_total, ← reclaimWeight_total] at this
      simpa [reclaimWeight, reclaimable] using this
    have pages := weight fun x => x.pages.length
    have count := weight fun _ => 1
    simp only [sumOf_eq_sum, List.map_const', List.sum_replicate, smul_eq_mul, Nat.mul_one] at count
    refine ⟨?_, count⟩
    have free := freePages_freeEntry s id
    rw [he] at free
    unfold availablePages reclaimPages
    rw [free, ← pages]
    simp only [pagesOf, Option.map_some, Option.getD_some]
    omega
  · rename_i none
    exact absurd (bestBy_eq_none none) listed

/-- Reclaiming yields as many free pages as are wanted, where that many are available (R111). -/
theorem reclaimFor_enough {need n : Nat} {s : State} (w : twf none s.store.entries = true)
    (count : (entriesWhere s Entry.reclaimable).length ≤ n) (enough : need ≤ availablePages s) :
    need ≤ (reclaimFor need n s).store.freePages := by
  have spent : ∀ {s : State}, entriesWhere s Entry.reclaimable = [] → availablePages s = s.store.freePages := fun {s} none => by
    unfold availablePages reclaimPages
    rw [none]
    rfl
  induction n generalizing s with
  | zero =>
    rw [spent (List.eq_nil_of_length_eq_zero (Nat.le_zero.1 count))] at enough
    exact enough
  | succ n ih =>
    unfold reclaimFor
    split
    · rename_i few
      have listed : entriesWhere s Entry.reclaimable ≠ [] := fun none => by
        rw [spent none] at enough
        omega
      obtain ⟨available, fewer⟩ := reclaimOne_frees w listed
      exact ih ((reclaimOne_books s).entries w) (by omega) (by omega)
    · omega

/-- Reclaiming leaves an entry that is not on the reclaim list. -/
theorem reclaimFor_leaves {id : Nat} {e : Entry} (need n : Nat) {s : State} (w : twf none s.store.entries = true)
    (he : s.entry id = some e) (h : e.reclaimable = false) : (reclaimFor need n s).entry id = some e := by
  induction n generalizing s with
  | zero => exact he
  | succ n ih =>
    unfold reclaimFor
    split
    · refine ih ((reclaimOne_books s).entries w) ?_
      unfold reclaimOne
      split
      · rename_i j x head
        obtain ⟨hx, reclaimable⟩ := (mem_entriesWhere w).1 (bestBy_mem head)
        refine ((freeEntry_touches s j).entries id ?_).trans he
        rintro rfl
        rw [he] at hx
        cases hx
        rw [h] at reclaimable
        cases reclaimable
      · exact he
    · exact he

theorem reclaimFor_books (need n : Nat) (s : State) : Books s (reclaimFor need n s) := by
  induction n generalizing s with
  | zero => exact .refl s
  | succ n ih =>
    unfold reclaimFor
    split
    · exact (reclaimOne_books s).trans (ih _)
    · exact .refl s

/-! ## The grant (R111) -/

/-- The record of an entry whose pages are granted. -/
def grantedEntry (s : State) (e : Entry) (kinds : List FillPiece) (allot : Nat) : Entry :=
  { e with granted := true, pages := choosePages s e.pageNeed, recordNeed := needOf kinds, allotment := allot }

/-- What a grant does once its pages are free. -/
def granted (s : State) (id : Nat) (e : Entry) (kinds : List FillPiece) (allot : Nat) : State :=
  let s2 := s.setEntry id (some (grantedEntry s e kinds allot))
  let s3 := { s2 with
    store := { s2.store with freePages := s2.store.freePages - e.pageNeed }
    sched := { s2.sched with freeRecords := s2.sched.freeRecords - allot } }
  tellReferrers (s3.setContext id (some ⟨kinds, allot, false⟩)) id .filling

theorem makeGrant_eq (s : State) (id : Nat) (e : Entry) (kinds : List FillPiece) (allot : Nat) :
    makeGrant s id e kinds allot = granted (reclaimFor e.pageNeed s.store.entries.length s) id e kinds allot := rfl

/-- The fill context is opened and the referrers told. -/
theorem opened_books (s : State) (id : Nat) (c : Option Context) (st : ListStatus) (n : Nat) :
    Books s (tellReferrers (State.setContext { s with sched := { s.sched with freeRecords := n } } id c) id st) :=
  (Books.trans (s := s) (t := { s with sched := { s.sched with freeRecords := n } }) (.same rfl) (.setContext _ id c)).trans
    (tellReferrers_books _ id st)

theorem granted_forms (s : State) (id : Nat) (e : Entry) (kinds : List FillPiece) (allot : Nat) :
    Forms s (granted s id e kinds allot) :=
  ((Forms.setEntry s id (some (grantedEntry s e kinds allot))).trans (.freePages _ (s.store.freePages - e.pageNeed))).trans
    (opened_books _ id _ _ _).toForms

theorem granted_books {s : State} {id : Nat} {e : Entry} (kinds : List FillPiece) (allot : Nat) (he : s.entry id = some e)
    (waiting : e.waiting = true) (enough : e.pageNeed ≤ s.store.freePages) : Books s (granted s id e kinds allot) := by
  obtain ⟨filling, ungranted⟩ : e.state = .filling ∧ e.granted = false := by simpa [Entry.waiting] using waiting
  refine Books.trans (Books.setEntryFree (id := id) (o := some (grantedEntry s e kinds allot))
    (free := s.store.freePages - e.pageNeed) fun _ held => ⟨?_, ?_⟩) (opened_books _ id _ _ _)
  · have empty := held.pages_eq_nil he (by rw [filling]; nofun) fun _ => ungranted
    simp only [he, pagesOf, grantedEntry, Option.map_some, Option.getD_some, length_choosePages, empty, List.length_nil]
    omega
  · rintro x hx -
    cases hx
    exact .inr ⟨filling, rfl⟩

/-- A grant of waiting pages: as many are taken from the free pages as the entry needs (R105, R111). -/
theorem makeGrant_books {s : State} {id : Nat} {e : Entry} (kinds : List FillPiece) (allot : Nat)
    (waits : (id, e) ∈ entriesWhere s Entry.waiting) (enough : e.pageNeed ≤ availablePages s) :
    Books s (makeGrant s id e kinds allot) := by
  rw [makeGrant_eq]
  have reclaims := reclaimFor_books e.pageNeed s.store.entries.length s
  refine .held (reclaims.toForms.trans (granted_forms _ id e kinds allot)) fun w _ => reclaims.trans ?_
  obtain ⟨he, waiting⟩ := (mem_entriesWhere w).1 waits
  have kept : e.reclaimable = false := by
    have filling : e.state = .filling := by simp [Entry.waiting] at waiting; exact waiting.1
    simp [Entry.reclaimable, filling]
  exact granted_books kinds allot (reclaimFor_leaves _ _ w he kept) waiting
    (reclaimFor_enough w (List.length_filterMap_le _ _) enough)

theorem failWaiting_books {s : State} {id : Nat} {e : Entry} (waits : (id, e) ∈ entriesWhere s Entry.waiting) :
    Books s (failWaiting s id) := by
  have told : ∀ t, Books t (stampIfUnused (tellReferrers t id (.failed .noMember)) id) := fun t =>
    (tellReferrers_books t id _).trans (stampIfUnused_books _ id)
  refine Books.trans (.setEntry fun w held => ?_) (told _)
  obtain ⟨he, waiting⟩ := (mem_entriesWhere w).1 waits
  obtain ⟨filling, ungranted⟩ : e.state = .filling ∧ e.granted = false := by simpa [Entry.waiting] using waiting
  have empty := held.pages_eq_nil he (by rw [filling]; nofun) fun _ => ungranted
  rw [he]
  exact ⟨rfl, fun x hx => by cases hx; exact Entry.lawful_of_nil empty⟩

theorem grantHead_books {s t : State} (h : grantHead s = some t) : Books s t := by
  unfold grantHead at h
  split at h
  · cases h
  · rename_i id e head
    have waits := bestBy_mem head
    split at h
    · cases h
    · split at h
      · cases h
      · rename_i available
        split at h
        · cases h; exact failWaiting_books waits
        · dsimp only at h
          split at h
          · cases h; exact .counted s id _ fun _ => rfl
          · cases h; exact makeGrant_books _ _ waits (by omega)

/-! ## Orphans, retries, SERVICE_CLEAR -/

theorem orphanWhere_books (s : State) (f : Key → Bool) : Books s (orphanWhere s f) :=
  .mapEntries s (fun _ e => if f e.key then { e with orphan := true } else e) fun _ e => by split <;> rfl

theorem forgetVolume_books (s : State) (v : Nat) : Books s (forgetVolume s v) :=
  .mapEntries s (fun _ e => if e.volume = some v then { e with volume := none } else e) fun _ e => by split <;> rfl

theorem refreshUrgency_books (s : State) : Books s (refreshUrgency s) :=
  (Books.mapEntries s (withDeadlines (deadlinesGiven s)) fun _ _ => rfl).trans (.same rfl)

/-- What a retry writes: nothing, a free record, or a new entry that holds no page. -/
theorem retryOne_cases (s : State) (x : Nat × Entry) : retryOne s x = s ∨ retryOne s x = freeEntry s x.1 ∨
    ∃ n, n.pages = [] ∧ retryOne s x = bumpArrivals (s.setEntry x.1 (some n)) := by
  unfold retryOne
  split
  · exact .inl rfl
  · split
    · exact .inr (.inl rfl)
    · split
      · unfold retryEntry
        split
        · rename_i v _
          exact .inr (.inr ⟨{ newEntry s x.2.key v x.2.loc s.store.arrivals with pins := x.2.pins }, newEntry_pages .., rfl⟩)
        · exact .inl rfl
      · exact .inl rfl

theorem bumpArrivals_books (s : State) : Books s (bumpArrivals s) := .same rfl

theorem retryOne_forms (s : State) (x : Nat × Entry) : Forms s (retryOne s x) := by
  rcases retryOne_cases s x with h | h | ⟨n, -, h⟩ <;> rw [h]
  · exact (Books.refl s).toForms
  · exact (freeEntry_books s _).toForms
  · exact (Forms.setEntry s x.1 _).trans (bumpArrivals_books _).toForms

theorem retryOne_books {s : State} {x : Nat × Entry} (none : pagesOf (s.entry x.1) = 0) : Books s (retryOne s x) := by
  rcases retryOne_cases s x with h | h | ⟨n, empty, h⟩ <;> rw [h]
  · exact .refl s
  · exact freeEntry_books s _
  · refine (Books.setEntry fun _ _ => ⟨?_, fun e he => ?_⟩).trans (bumpArrivals_books _)
    · rw [none]
      exact congrArg List.length empty
    · cases he
      exact Entry.lawful_of_nil empty

/-- A retry gives no entry pages. -/
theorem retryOne_pagesOf {s : State} {x : Nat × Entry} {id : Nat} (none : pagesOf (s.entry id) = 0) :
    pagesOf ((retryOne s x).entry id) = 0 := by
  rcases retryOne_cases s x with h | h | ⟨n, empty, h⟩ <;> rw [h]
  · exact none
  · by_cases e : id = x.1
    · rw [e, freeEntry_entry]; rfl
    · rw [(freeEntry_touches s x.1).entries id e]; exact none
  · show pagesOf ((s.setEntry x.1 (some n)).entry id) = 0
    rw [State.entry_setEntry]
    split
    · exact congrArg List.length empty
    · exact none

theorem retries_books {l : List (Nat × Entry)} {s : State} (h : ∀ x ∈ l, pagesOf (s.entry x.1) = 0) :
    Books s (l.foldl retryOne s) := by
  induction l generalizing s with
  | nil => exact .refl s
  | cons x l ih =>
    rw [List.forall_mem_cons] at h
    exact (retryOne_books h.1).trans (ih fun y hy => retryOne_pagesOf (h.2 y hy))

theorem memberOnline_books (s : State) : Books s (memberOnline s) := by
  refine .held (.foldl retryOne_forms _ s) fun w held => retries_books fun x hx => pagesOf_eq_zero.2 fun e he => ?_
  obtain ⟨read, lost⟩ := (mem_entriesWhere w).1 hx
  rw [read] at he
  cases he
  have failed : (∃ r, x.2.state = .failed r) := by
    simp only [Entry.lostMember, Bool.or_eq_true, beq_iff_eq] at lost
    exact lost.elim (⟨_, ·⟩) (⟨_, ·⟩)
  obtain ⟨r, failed⟩ := failed
  exact held.pages_eq_nil read (by rw [failed]; nofun) (by rw [failed]; nofun)

theorem tsorted_filter {α : Type} {t : Tab α} (f : Nat × α → Bool) (h : tsorted t = true) : tsorted (t.filter f) = true := by
  induction t with
  | nil => exact h
  | cons c t ih =>
    obtain ⟨above, rest⟩ := tsorted_cons.1 h
    rw [List.filter_cons]
    split
    · exact tsorted_cons.2 ⟨fun e he => above e (List.mem_of_mem_filter he), ih rest⟩
    · exact ih rest

/-- A table whose records are changed, and those that come to the default dropped. -/
theorem twf_kept {α : Type} [DecidableEq α] {d : α} {t : Tab α} (f : Nat → α → α) (h : twf d t = true) :
    twf d ((tmap f t).filter (fun c => c.2 ≠ d)) = true := by
  have sorted : tsorted (tmap f t) = true := (tsorted_tmap f t).trans (twf_iff.1 h).1
  refine twf_iff.2 ⟨tsorted_filter _ sorted, fun c hc => ?_⟩
  simpa using (List.mem_filter.1 hc).2

/-- The entry records SERVICE_CLEAR leaves (R124). -/
def clearEntries (t : Tab (Option Entry)) : Tab (Option Entry) := (tmap (fun _ o => clearEntry o) t).filter (fun c => c.2 ≠ none)

theorem pagesOf_clearEntry_le (o : Option Entry) : pagesOf (clearEntry o) ≤ pagesOf o := by
  cases o with
  | none => exact Nat.le_refl _
  | some e =>
    simp only [clearEntry, Option.bind_some]
    split
    · exact Nat.zero_le _
    · exact Nat.le_refl _

/-- SERVICE_CLEAR gives no entry pages. -/
theorem clearEntries_pages (t : Tab (Option Entry)) :
    sumOf (fun c => pagesOf c.2) (clearEntries t) ≤ sumOf (fun c => pagesOf c.2) t := by
  rw [sumOf_eq_sum, sumOf_eq_sum]
  unfold clearEntries tmap
  induction t with
  | nil => exact Nat.le_refl _
  | cons c t ih =>
    have le := pagesOf_clearEntry_le c.2
    rw [List.map_cons, List.filter_cons]
    split
    · simp only [List.map_cons, List.sum_cons] at ih ⊢
      omega
    · simp only [List.map_cons, List.sum_cons] at ih ⊢
      omega

theorem clearStore_books (s : State) : Books s (clearStore s) where
  tables := fun ⟨clips, views, chans, rings, entries, _, rest⟩ => ⟨clips, views, chans, rings, twf_kept _ entries, rfl, rest⟩
  entries := twf_kept _
  memory := rfl
  pages w held := by
    have le := clearEntries_pages s.store.entries
    refine ⟨?_, fun id e he => ?_⟩
    · have total := held.1
      unfold pagesHeld at *
      show s.store.freePages + (sumOf (fun c => pagesOf c.2) s.store.entries -
        sumOf (fun c => pagesOf c.2) (clearEntries s.store.entries)) +
          sumOf (fun c => pagesOf c.2) (clearEntries s.store.entries) = _
      omega
    · have read : tget none (clearEntries s.store.entries) id = some e := he
      have listed := mem_of_tget_ne (d := none) (t := clearEntries s.store.entries) (k := id) (by rw [read]; nofun)
      rw [read] at listed
      obtain ⟨⟨j, o⟩, ho, eq⟩ := List.mem_map.1 (List.mem_of_mem_filter listed)
      obtain ⟨rfl, eq⟩ := Prod.mk.inj eq
      cases o with
      | none => cases eq
      | some x =>
        have lawful : x.Lawful := held.2 _ x (tget_of_mem (twf_iff.1 w).1 ho)
        simp only [clearEntry, Option.bind_some] at eq
        split at eq
        · cases eq
        · cases eq
          exact lawful

theorem clearSched_books (s : State) : Books s (clearSched s) := 
  (Books.ofContexts s [] fun _ => rfl).trans (.same rfl)

/-! ## Pins -/

theorem coverFrame_books (s : State) (p f : Nat) : Books s (coverFrame s p f) := by
  unfold coverFrame
  dsimp only
  split
  · exact .refl s
  · exact ((findOrAdmit_books _ _ _ _).trans (addPin_books _ _)).trans (.setPin _ _ _)

theorem coverFrames_books (s : State) (p : Nat) (fs : List Nat) : Books s (coverFrames s p fs) :=
  .foldl (f := fun s f => coverFrame s p f) (fun s f => coverFrame_books s p f) fs s

theorem uncover_books (s : State) (p : Nat) (f : Nat → Bool) : Books s (uncover s p f) :=
  (Books.setPin s p _).trans (.foldl (f := fun s (x : Nat × Nat) => releasePin s x.2) (fun s x => releasePin_books s x.2) _ _)

theorem truncatePin_books (p n : Nat) (s : State) : Books s (truncatePin p n s) := by
  induction n generalizing s with
  | zero => exact .refl s
  | succ n ih =>
    unfold truncatePin
    split
    · exact .refl s
    · exact ((Books.setPin s p _).trans (uncover_books _ _ _)).trans (ih _)

theorem refillPin_books (g : Nat) (s : State) (p : Nat) : Books s (refillPin g s p) :=
  ((uncover_books s p _).trans (coverFrames_books _ _ _)).trans (truncatePin_books _ _ _)

theorem refillPins_books (s : State) (clip g : Nat) : Books s (refillPins s clip g) := by
  unfold refillPins
  refine Books.foldl (fun x p => ?_) _ s
  split
  · exact refillPin_books _ _ _
  · exact .refl x

/-- A lapsed pin is no pin at its reset values. -/
theorem lapsePins_books (s : State) (clip : Nat) : Books s (lapsePins s clip) := by
  refine .ofPins s _ fun h => ?_
  refine twf_tmap (fun _ q ne e => ne ?_) h
  dsimp only at e
  split at e
  · rename_i lapses
    exact absurd (congrArg Pin.state e) (by simp [Pin.initial])
  · exact e

/-! ## The read-ahead list -/

theorem releaseEntries_books (s : State) (es : List ListEntry) : Books s (releaseEntries s es) := by
  unfold releaseEntries
  refine Books.foldl (fun x e => ?_) _ s
  split
  · exact releaseRef_books _ _
  · exact .refl x

theorem setList_books (s : State) (c : Nat) (l : List ListEntry) : Books s (setList s c l) := .modChan s c _
theorem modList_books (s : State) (c i : Nat) (f : ListEntry → ListEntry) : Books s (modList s c i f) := .modChan s c _

theorem recompute_books (s : State) (c : Nat) (k : Recompute) (n : Word32) : Books s (recompute s c k n) :=
  (setList_books _ _ _).trans (releaseEntries_books _ _)

theorem releaseList_books (s : State) (c : Nat) : Books s (releaseList s c) :=
  (setList_books _ _ _).trans (releaseEntries_books _ _)

theorem dropPassed_books (s : State) (c : Nat) (n : Word32) : Books s (dropPassed s c n) :=
  (setList_books _ _ _).trans (releaseEntries_books _ _)

theorem reresolveGroup_books (s : State) (c g : Nat) : Books s (reresolveGroup s c g) :=
  (Books.modChan s c _).trans (releaseEntries_books _ _)

theorem resolveAt_books (s : State) (c i : Nat) : Books s (resolveAt s c i) := by
  unfold resolveAt
  dsimp only
  split
  · exact .refl s
  · split
    · split
      · exact modList_books _ _ _ _
      · exact ((findOrAdmit_books _ _ _ _).trans (addRef_books _ _)).trans (modList_books _ _ _ _)
    · exact modList_books _ _ _ _

theorem resolveStep_books {s t : State} (h : resolveStep s = some t) : Books s t := by
  obtain ⟨c, -, hc⟩ := firstSome_mem h
  obtain ⟨i, -, rfl⟩ := Option.map_eq_some_iff.1 hc
  exact resolveAt_books _ _ _

theorem extendOne_books {s t : State} {c : Nat} {ch : Channel} (h : extendOne s c ch = some t) : Books s t := by
  unfold extendOne at h
  split at h
  · obtain ⟨d, -, rfl⟩ := Option.map_eq_some_iff.1 h
    exact setList_books _ _ _
  · cases h

theorem extendFor_books (c n : Nat) (s : State) : Books s (extendFor c n s) := by
  induction n generalizing s with
  | zero => exact .refl s
  | succ n ih =>
    unfold extendFor
    split
    · rename_i t ht
      exact (extendOne_books ht).trans (ih t)
    · exact .refl s

theorem extendStep_books {s t : State} (h : extendStep s = some t) : Books s t := by
  obtain ⟨c, -, hc⟩ := firstSome_mem h
  exact extendOne_books hc

/-! ## The Delivery Engine -/

theorem publishOne_books (c : Nat) (s : State) : Books s (publishOne c s) := (Books.setRing s c _).trans (.emit _ _)

theorem writeNoData_books (s : State) (c : Nat) (d : Record) : Books s (writeNoData s c d) := by
  have written : ∀ r o, Books s ((s.setRing c r).emit o) := fun r o => (Books.setRing s c r).trans (.emit _ o)
  unfold writeNoData
  dsimp only
  split
  · exact written _ _
  · exact (written _ _).trans (publishOne_books _ _)

theorem markWritten_books (s : State) (c : Nat) (n : Word32) : Books s (markWritten s c n) := .modChan s c _

theorem writeRepeat_books (s : State) (c : Nat) (e : ListEntry) (p : Cursor) : Books s (writeRepeat s c e p) :=
  (writeNoData_books _ _ _).trans (markWritten_books _ _ _)

theorem writeMiss_books (s : State) (c : Nat) (r : MissReason) (p : Cursor) : Books s (writeMiss s c r p) :=
  (writeNoData_books _ _ _).trans (markWritten_books _ _ _)

theorem writeRevoke_books (s : State) (c : Nat) (v : Revoke) : Books s (writeRevoke s c v) := by
  unfold writeRevoke
  dsimp only
  exact (writeNoData_books _ _ _).trans (.modRing _ _ _)

theorem beginTransfer_books (s : State) (c id : Nat) (x : Entry) (p : Cursor) : Books s (beginTransfer s c id x p) :=
  ((Books.setRing s c _).trans (addHold_books _ _)).trans (markWritten_books _ _ _)

theorem beginIfReady_books {s t : State} {c : Nat} {e : ListEntry} {p : Cursor} (h : beginIfReady s c e p = some t) :
    Books s t := by
  unfold beginIfReady at h
  split at h
  · obtain ⟨x, -, rfl⟩ := Option.map_eq_some_iff.1 h
    exact beginTransfer_books _ _ _ _ _
  · cases h

theorem deliverPeriod_books {s t : State} {c : Nat} (h : deliverPeriod s c = some t) : Books s t := by
  unfold deliverPeriod at h
  dsimp only at h
  repeat' (split at h)
  all_goals first
    | (cases h; done)
    | (simp only [Option.some.injEq] at h; subst h; exact writeRepeat_books _ _ _ _)
    | exact beginIfReady_books h

theorem deliverOne_books {s t : State} {c : Nat} (h : deliverOne s c = some t) : Books s t := by
  unfold deliverOne at h
  dsimp only at h
  repeat' (split at h)
  all_goals first
    | (cases h; done)
    | (simp only [Option.some.injEq] at h; subst h; exact writeRevoke_books _ _ _)
    | exact deliverPeriod_books h

theorem deliverStep_books {s t : State} (h : deliverStep s = some t) : Books s t := by
  obtain ⟨c, -, hc⟩ := firstSome_mem h
  exact deliverOne_books hc

end Sys2Proof.Machine

/-! SUPPORT. The books through the end of a read, the Frame Map, the Channel Controller, the members and every request. -/

namespace Sys2Proof.Machine

/-! ## The end of a read -/

/-- The read under a tag and the piece it is for, where its entry's fill stands (R132, R136). -/
def fillOf (s : State) (m tag : Nat) : Option (UnitRead × FillPiece) :=
  (issuedRead s m tag).bind fun r => if r.detached then none else (s.context r.context).bind fun c =>
    if c.abandoned then none else (c.pieces[r.piece]?).map fun q => (r, q)

/-- Whether a read of the piece is XORed into what stands (R132). -/
def FillPiece.xored (q : FillPiece) : Bool :=
  match q.status with
  | .set _ placed => placed
  | _ => false

/-- The state with the data of an ended read placed (R132). -/
def placed (s : State) (m tag : Nat) : ReadEnd → State
  | .ok data => (fillOf s m tag).elim s fun x => placeData s x.1.context x.2.xored data x.2.piece.extracts
  | .lost => s

theorem completion_books (s : State) (id i : Nat) (f : FillPiece → FillPiece) :
    Books s (completePiece (releaseWithin (modPiece s id i f) id) id) :=
  ((modPiece_books s id i f).trans (releaseWithin_books _ id)).trans (completePiece_books _ id)

theorem FillPiece.xored_of_set {q : FillPiece} {n : Nat} {b : Bool} (h : q.status = .set n b) : q.xored = b := by
  unfold FillPiece.xored
  rw [h]

theorem FillPiece.xored_of_other {q : FillPiece} (h : ∀ n b, q.status = .set n b → False) : q.xored = false := by
  unfold FillPiece.xored
  split
  · rename_i status
    exact (h _ _ status).elim
  · rfl

theorem readOk_books (s : State) (r : UnitRead) (q : FillPiece) (data : List Byte) :
    Books (placeData s r.context q.xored data q.piece.extracts) (readOk s r q data) := by
  unfold readOk
  split
  · rename_i status
    rw [FillPiece.xored_of_set status]
    exact (completion_books _ _ _ _).ite ((modPiece_books _ _ _ _).trans (releaseWithin_books _ _))
  · rename_i other
    rw [FillPiece.xored_of_other other]
    exact completion_books _ _ _ _

theorem placeData_dropRead (s : State) (x r : UnitRead) (b : Bool) (data : List Byte) (xs : List Extract) :
    Books (placeData s x.context b data xs) (placeData (dropRead s r) x.context b data xs) := by
  have read : (dropRead s r).entry x.context = s.entry x.context := rfl
  unfold placeData
  rw [read]
  split <;> exact .same rfl

/-- Beside the data of an OK read, the end of a read keeps the books. -/
theorem readEnded_books (s : State) (m tag : Nat) (how : ReadEnd) : Books (placed s m tag how) (readEnded s m tag how) := by
  have stays : fillOf s m tag = none → placed s m tag how = s := fun h => by
    cases how with
    | lost => rfl
    | ok data => unfold placed; rw [h]; rfl
  unfold readEnded
  split
  · rename_i none
    rw [stays (by unfold fillOf; rw [none]; rfl)]
    exact .refl s
  · rename_i r read
    dsimp only
    have drop := dropRead_books s r
    split
    · rename_i detached
      rw [stays (by unfold fillOf; rw [read]; simp [detached])]
      exact drop.trans (releaseMany_books _ _)
    · rename_i attached
      split
      · rename_i closed
        have closed : s.context r.context = none := closed
        rw [stays (by unfold fillOf; rw [read]; simp [attached, closed])]
        exact drop.trans (releaseMany_books _ _)
      · rename_i c context
        have context : s.context r.context = some c := context
        split
        · rename_i abandoned
          rw [stays (by unfold fillOf; rw [read]; simp [attached, context, abandoned])]
          have released := drop.trans (releaseMany_books _ 1)
          exact (released.trans ((Books.setContext _ _ none).trans (freeEntry_books _ _))).ite released
        · rename_i stands
          split
          · rename_i none
            rw [stays (by unfold fillOf; rw [read]; simp [attached, context, stands, none])]
            exact drop.trans (releaseMany_books _ _)
          · rename_i q piece
            have fill : fillOf s m tag = some (r, q) := by unfold fillOf; rw [read]; simp [attached, context, stands, piece]
            cases how with
            | lost => exact drop.trans (readLost_books _ r q)
            | ok data =>
              unfold placed
              rw [fill]
              exact (placeData_dropRead s r r _ _ _).trans (readOk_books _ r q data)

theorem readLost_ended (s : State) (m tag : Nat) : Books s (readEnded s m tag .lost) := readEnded_books s m tag .lost

/-! ## Changes of a channel's course and range -/

theorem decideRevoke_books (s : State) (c : Nat) (r : Word32) (b : Bool) : Books s (decideRevoke s c r b) := by
  unfold decideRevoke
  exact (Books.modRing s c _).trans (.modChan _ c _)

theorem revokeFrom_books (s : State) (c : Nat) (r : Word32) (b : Bool) : Books s (revokeFrom s c r b) :=
  (decideRevoke_books s c r b).ite (.refl s)

theorem applyCourse_books (s : State) (c : Nat) : Books s (applyCourse s c) := by
  unfold applyCourse
  split
  · exact (Books.reply _ _ _ _).trans (.modChan _ c _)
  · exact .refl s

theorem endPlay_books (s : State) (c : Nat) (p : Int) : Books s (endPlay s c p) := (applyCourse_books s c).trans (.modChan _ c _)

theorem groupChanged_books (g : Nat) (s : State) (c : Nat) : Books s (groupChanged g s c) := by
  unfold groupChanged
  dsimp only
  refine Books.trans ?_ (reresolveGroup_books _ c g)
  split
  · exact (decideRevoke_books _ _ _ _).trans (recompute_books _ _ _ _)
  · exact .refl s

theorem rangeRunning_books (s : State) (c i l : Nat) : Books s (rangeRunning s c i l) := by
  have shown : ∀ s1 : State, Books s1 (recompute (s1.modChan c (fun ch => ch.withRange i l)) c .trim (s.chan c).dueIndex) :=
    fun s1 => (Books.modChan s1 c _).trans (recompute_books _ _ _ _)
  unfold rangeRunning
  dsimp only
  split
  · exact ((decideRevoke_books _ _ _ _).trans (shown _)).trans (recompute_books _ _ _ _)
  · exact shown s

theorem rangeEnds_books (s : State) (c i l : Nat) : Books s (rangeEnds s c i l) :=
  (((revokeFrom_books _ _ _ _).trans (.modChan _ c _)).trans (endPlay_books _ _ _)).trans (recompute_books _ _ _ _)

theorem lengthChanged_books (n : Nat) (s : State) (c : Nat) : Books s (lengthChanged n s c) := by
  unfold lengthChanged
  dsimp only
  split
  · exact (rangeEnds_books _ _ _ _).ite (rangeRunning_books _ _ _ _)
  · exact (Books.modChan s c _).trans (recompute_books _ _ _ _)

theorem growthEnded_books (s : State) (c : Nat) : Books s (growthEnded s c) := by
  unfold growthEnded
  dsimp only
  exact (Books.refl s).ite ((((revokeFrom_books _ _ _ _).trans (endPlay_books _ _ _)).trans (recompute_books _ _ _ _)).ite
    ((Books.modChan s c _).trans (recompute_books _ _ _ _)))

theorem growthBegan_books (s : State) (c : Nat) : Books s (growthBegan s c) := (extendFor_books _ _ _).trans (.modChan _ c _)

/-! ## The Frame Map -/

theorem releaseViewOpt_books (s : State) (v : Option Nat) : Books s (releaseViewOpt s v) := by
  cases v with
  | none => exact Books.refl s
  | some v => exact Books.setView s v _

theorem countClip_books (s : State) (v : Nat) (f : Nat → Nat) : Books s (countClip s v f) := .setVolume s v _

theorem freeClip_books (s : State) (h : Nat) : Books s (freeClip s h) := by
  have pools : ∀ (u : State) (x y : Nat), Books u { u with map := { u.map with freePages := x, freeTables := y } } :=
    fun _ _ _ => .same rfl
  unfold freeClip
  exact (((orphanWhere_books s _).trans (lapsePins_books _ h)).trans (pools _ _ _)).trans
    ((Books.setClip _ h _).trans (countClip_books _ _ _))

theorem unbind_books (s : State) (h : Nat) : Books s (unbind s h) := by
  unfold unbind
  dsimp only
  exact ((Books.setClip s h _).trans (freeClip_books _ h)).ite (Books.setClip s h _)

theorem moveBind_books (s : State) (old h : Nat) : Books s (moveBind s old h) := by
  unfold moveBind
  exact (Books.refl s).ite ((Books.setClip s h _).ite ((Books.setClip s h _).trans (unbind_books _ old)))

theorem handOff_books (s : State) (h g old : Nat) : Books s (handOff s h g old) := by
  have orphan : Books s (orphaned s old) := (Books.refl s).ite (orphanWhere_books s _)
  rw [handOff_eq]
  exact (orphan.trans (refillPins_books _ h g)).trans (Books.foldl (groupChanged_books g) _ _)

theorem writeSlot_books (s : State) (h g : Nat) (v : GroupSlot) : Books s (writeSlot s h g v) := (Books.setClip s h _).trans (.same rfl)

theorem slotWritten_books (s : State) (h g n : Nat) (v : GroupSlot) : Books s (slotWritten s h g n v) :=
  (writeSlot_books s h g v).trans (.same rfl)

theorem writeGroup_books (s : State) (h g n : Nat) (v : GroupSlot) : Books s (writeGroup s h g n v) :=
  (slotWritten_books s h g n v).trans (handOff_books _ h g _)

theorem fillGroup_books (s : State) (f : Fetch) (es : List (Nat × Nat)) : Books s (fillGroup s f es) := by
  unfold fillGroup
  split
  · exact Books.refuse _ _ _
  · exact (writeGroup_books _ _ _ _ _).trans (Books.reply _ _ _ _)

theorem endFetch_books (s : State) (f : Fetch) (list : Option (List Byte)) : Books s (endFetch s f list) := by
  have close : Books s (closeFetch s f) := .same rfl
  unfold endFetch
  dsimp only
  split
  · exact close.trans (Books.reply _ _ _ _)
  · exact close.trans (fillGroup_books _ _ _)

theorem startFetch_books (s : State) (a : GroupListArgs) (t : Ticket) : Books s (startFetch s a t) := by
  have aside : Books s (setAside s (fetchOf s a t)) := .same rfl
  rw [startFetch_eq]
  exact (aside.trans (endFetch_books _ _ _)).ite (aside.trans (Books.emit _ _))

theorem amendClip_books (s : State) (a : ClipAmendArgs) : Books s (amendClip s a) := by
  have length : Books s (amendLength s a) := Books.setClip s a.clip _
  have growing : ∀ u, Books u (amendGrowing u a) := fun u => Books.setClip u a.clip _
  unfold amendClip
  dsimp only
  have second := length.ite (p := a.length = (s.clip a.clip).length)
    (length.trans (Books.foldl (lengthChanged_books a.length) (boundChannels s a.clip) (amendLength s a)))
  have third := Books.ite (p := (!(s.clip a.clip).growing) = true ∧ a.growing = true)
    (second.trans (Books.foldl growthBegan_books (boundChannels s a.clip) _)) second
  have fourth := third.trans (growing _)
  exact (fourth.trans (Books.foldl growthEnded_books (boundChannels s a.clip) _)).ite fourth

/-! ## The Channel Controller -/

theorem endCue_books (s : State) (c : Nat) (r : Result) : Books s (endCue s c r) := by
  unfold endCue
  split
  · exact (Books.refuse _ _ _).trans (Books.modChan _ _ _)
  · exact Books.refl s

theorem cancelWait_books (s : State) (c : Nat) : Books s (cancelWait s c) := .setWait s c none

theorem endStart_books (s : State) (c : Nat) (r : Result) : Books s (endStart s c r) := by
  unfold endStart
  split
  · exact ((Books.refuse _ _ _).trans (cancelWait_books _ c)).trans (Books.modChan _ _ _)
  · exact Books.refl s

theorem endCourse_books (s : State) (c : Nat) (r : Result) : Books s (endCourse s c r) := by
  unfold endCourse
  split
  · exact (Books.refuse _ _ _).trans (Books.modChan _ _ _)
  · exact Books.refl s

theorem endWaiting_books (s : State) (c : Nat) (r : Result) : Books s (endWaiting s c r) :=
  ((endCue_books s c r).trans (endStart_books _ c r)).trans (endCourse_books _ c r)

theorem cutCue_books (s : State) (c : Nat) : Books s (cutCue s c) := by
  unfold cutCue completeCue
  dsimp only
  split
  · exact (Books.reply _ _ _ _).trans (Books.modChan _ _ _)
  · exact Books.modChan _ _ _

theorem courseChange_books (s : State) (c : Nat) (k : Recompute) (n : Word32) (f : Channel → Channel) :
    Books s (courseChange s c k n f) := by
  unfold courseChange
  dsimp only
  refine Books.trans ?_ ((Books.modChan _ _ _).trans (recompute_books _ _ _ _))
  split
  · exact ((endCourse_books s c _).trans (revokeFrom_books _ _ _ _)).trans (recompute_books _ _ _ _)
  · exact (endCourse_books s c _).trans (revokeFrom_books _ _ _ _)

theorem cueTo_books (s : State) (c : Nat) (t : Ticket) (p : Int) : Books s (cueTo s c t p) := by
  unfold cueTo
  exact (((endCue_books s c .superseded).trans (Books.modChan _ _ _)).trans (recompute_books _ _ _ _)).trans (Books.modChan _ _ _)

theorem fireStart_books (s : State) (c : Nat) (t : Ticket) (n : Nat) (b : Bool) : Books s (fireStart s c t n b) := by
  unfold fireStart
  dsimp only
  exact (Books.refuseEmptyClip _ _).ite
    ((((cutCue_books s c).ite (Books.refl s)).trans (Books.modChan _ _ _)).trans (Books.reply _ _ _ _))

theorem forceUnbind_books (s : State) (c : Nat) : Books s (forceUnbind s c) := by
  unfold forceUnbind
  dsimp only
  refine (endWaiting_books s c .aborted).trans ?_
  exact ((((revokeFrom_books _ _ _ _).ite (Books.refl _)).trans (releaseList_books _ _)).trans (releaseViewOpt_books _ _)).trans
    ((Books.setClip _ _ _).trans (Books.modChan _ _ _))

theorem dropRing_books (s : State) (c : Nat) : Books s (dropRing s c) := by
  unfold dropRing
  exact ((Books.setRing s c _).trans (Books.refuseOpt _ _ _)).trans (Books.modChan _ _ _)

theorem closeChannel_books (s : State) (c : Nat) (t : Ticket) : Books s (closeChannel s c t) := by
  have binding : ∀ u, Books u (closeBinding u c) := fun u => by
    unfold closeBinding
    dsimp only
    exact (Books.refl u).ite ((releaseViewOpt_books _ _).trans (unbind_books _ _))
  have ring : ∀ u, Books u (closeRing u c) := fun u => by
    unfold closeRing
    exact (Books.modRing u c _).ite (dropRing_books u c)
  exact ((((endWaiting_books s c .aborted).trans (releaseList_books _ _)).trans (binding _)).trans (Books.modChan _ _ _)).trans
    (ring _)

/-! ## Members and volumes -/

theorem failTags_books (s : State) (m : Nat) : Books s (failTags s m) :=
  Books.foldl (fun s t => (Books.modLink s m _).trans (readLost_ended _ m t)) _ s

theorem setMember_books (s : State) (m : Nat) (k : MemberState) : Books s (setMember s m k) := by
  unfold setMember
  dsimp only
  have noted : ∀ u, Books u (noteMember u) := fun u => .same rfl
  exact ((((Books.modLink s m _).when (fun u => (leaveOnline_books u m))).when (fun u => failTags_books u m)).when
    (fun u => (memberOnline_books u))).trans (noted _)

theorem endHold_books (s : State) (m : Nat) (r : Result) : Books s (endHold s m r) := (Books.refuseOpt _ _ _).trans (Books.modLink _ _ _)

theorem dissolve_books (s : State) (v : Nat) : Books s (dissolve s v) := by
  have gone : Books s (forgetVolume (s.setVolume v Volume.initial) v) := (Books.setVolume s v _).trans (forgetVolume_books _ v)
  exact gone.trans (Books.foldl (fun s m => (Books.modLink s m _).trans (setMember_books _ m _)) _ _)

theorem defineVolume_books (s : State) (a : VolumeDefineArgs) : Books s (defineVolume s a) := by
  unfold defineVolume
  dsimp only
  have set : ∀ u : State, Books u (u.setVolume a.volume (volumeOf a)) := fun u => .setVolume u _ _
  have enlist : ∀ u x, Books u (enlistMember a.volume u x) := fun u x => by
    unfold enlistMember
    exact (Books.modLink u x.1 _).trans (setMember_books _ x.1 _)
  exact (((dissolve_books s a.volume).ite (Books.refl s)).trans (set _)).trans (Books.foldl enlist _ _)

/-! ## SERVICE_CLEAR -/

theorem clearBlocks_books (s : State) : Books s (clearBlocks s) := by
  have drop : ∀ u : State, Books u { u with chans := [] } := fun u => .ofChans u [] fun _ => rfl
  have rings : ∀ u, Books u (clearRings u) := fun u => .ofRings u _ (twf_kept _)
  have channels : Books s (clearChannels s) :=
    (Books.foldl (fun s c => (endWaiting_books s c .aborted).trans (Books.refuseOpt _ _ _)) _ s).trans (drop _)
  have map : ∀ u, Books u (clearMap u) := fun u => Books.foldl (fun s c => by
    dsimp only
    exact ((Books.setClip _ _ _).trans (freeClip_books _ _)).ite (Books.setClip _ _ _)) _ u
  have links : ∀ u, Books u ((List.range Config.members).foldl clearLink u) := fun u => Books.foldl (fun s m => by
    unfold clearLink
    exact ((setMember_books _ _ _).trans (endHold_books _ _ _)).ite (Books.refl s)) _ u
  have views : ∀ u, Books u (clearViews u) := fun u => .ofViews u _ (twf_kept _)
  have store : ∀ u, Books u (clearSched (clearStore (clearViews u))) := fun u =>
    ((views u).trans (clearStore_books _)).trans (clearSched_books _)
  have waits : ∀ u, Books u (clearWaits u) := fun u => .ofWaits u [] fun _ => rfl
  unfold clearBlocks
  exact ((((channels.trans (rings _)).trans (map _)).trans (store _)).trans (links _)).trans (waits _)

theorem answerClear_books (s : State) : Books s (answerClear s) := by
  unfold answerClear
  split
  · exact Books.refl s
  · exact (Books.refl s).ite ((Books.reply _ _ _ _).trans (.same rfl))

/-! ## Every request -/

theorem doNotice_books (a : NoticeModeArgs) (t : Ticket) (s : State) : Books s (doNoticeMode a t s) := by
  have notices : ∀ (u : State) c n, Books u { u with port := { u.port with
      chanNotices := tset NoticeSet.initial u.port.chanNotices c n } } := fun u c n => .ofNotices u _ (twf_tset _ _ _)
  have one : ∀ m1 m2 u c, Books u (setChanNotices a.enables m1 m2 u c) := fun m1 m2 u c => by
    unfold setChanNotices State.setChanFlag
    exact (notices u c _).trans (.modChan _ c _)
  have draw : ∀ u : State, Books u u.draw := fun u => .same rfl
  have set : ∀ m1 m2, Books s (setNotices s a m1 m2 t) := fun m1 m2 => by
    unfold setNotices
    exact ((Books.same (s := s) (t := setPartNotices s a.enables m1 m2) rfl).trans (Books.reply _ _ _ _)).ite
      ((Books.foldl (one m1 m2) _ s).trans (Books.reply _ _ _ _))
  unfold doNoticeMode
  refine (Books.refuse _ _ _).ite ?_
  split
  · exact (Books.refuseRange _ _ _).trans (draw _)
  · exact Books.refuseRange _ _ _
  · exact Books.refuseRange _ _ _
  · exact set _ _

theorem doNoticeTake_books (a : NoticeTakeArgs) (t : Ticket) (s : State) : Books s (doNoticeTake a t s) := by
  unfold doNoticeTake
  dsimp only
  exact (Books.refuse _ _ _).ite (((Books.same (s := s) (t := takePartFlags s a.mask) rfl).trans (Books.reply _ _ _ _)).ite
    ((Books.modChan _ _ _).trans (Books.reply _ _ _ _)))

theorem doClipMake_books (a : ClipMakeArgs) (t : Ticket) (s : State) : Books s (doClipMake a t s) := by
  unfold doClipMake
  refine (Books.refuse _ _ _).ite ((Books.refuseRange _ _ _).ite ?_)
  split
  · exact Books.refuse _ _ _
  · exact ((Books.setClip s _ _).trans (countClip_books _ _ _)).trans (Books.reply _ _ _ _)

theorem doClipAmend_books (a : ClipAmendArgs) (t : Ticket) (s : State) : Books s (doClipAmend a t s) :=
  (Books.refuse _ _ _).ite ((Books.refuse _ _ _).ite ((Books.refuseRange _ _ _).ite ((amendClip_books s a).trans (Books.reply _ _ _ _))))

theorem doGroupFix_books (a : GroupFixArgs) (t : Ticket) (s : State) : Books s (doGroupFix a t s) := by
  unfold doGroupFix
  split
  · exact Books.refuse _ _ _
  · refine (Books.refuseRange _ _ _).ite ((Books.refuseRange _ _ _).ite ((Books.refuseRange _ _ _).ite ((Books.refuseRange _ _ _).ite ?_)))
    split
    · exact Books.refuse _ _ _
    · exact (Books.refuse _ _ _).ite ((writeGroup_books _ _ _ _ _).trans (Books.reply _ _ _ _))

theorem doGroupList_books (a : GroupListArgs) (t : Ticket) (s : State) : Books s (doGroupList a t s) := by
  unfold doGroupList
  split
  · exact Books.refuse _ _ _
  · exact (Books.refuseRange _ _ _).ite ((Books.refuseRange _ _ _).ite ((Books.refuse _ _ _).ite ((Books.refuse _ _ _).ite
      (startFetch_books s a t))))

theorem doGroupDrop_books (a : GroupDropArgs) (t : Ticket) (s : State) : Books s (doGroupDrop a t s) := by
  have write := writeSlot_books s a.clip a.group .empty
  unfold doGroupDrop
  split
  · exact Books.refuse _ _ _
  · exact (Books.refuseRange _ _ _).ite ((Books.reply _ _ _ _).ite ((write.trans (handOff_books _ _ _ _)).trans (Books.reply _ _ _ _)))

theorem doClipRetire_books (a : ClipRetireArgs) (t : Ticket) (s : State) : Books s (doClipRetire a t s) := by
  have withdraw : Books s (withdrawClip s a.clip t) :=
    ((Books.foldl forceUnbind_books _ s).trans (freeClip_books _ _)).trans (Books.reply _ _ _ _)
  have retire : Books s (retireClip s a.clip t) :=
    ((freeClip_books _ _).trans (Books.reply _ _ _ _)).ite ((Books.setClip _ _ _).trans (Books.reply _ _ _ _))
  exact (Books.refuse _ _ _).ite (withdraw.ite retire)

theorem doViewDefine_books (a : ViewDefineArgs) (t : Ticket) (s : State) : Books s (doViewDefine a t s) := by
  have change : ∀ b h, Books s (changeView s a.view b h) := fun b h => by
    unfold changeView orphanView
    exact (Books.setView s _ _).trans (orphanWhere_books _ _)
  unfold doViewDefine
  refine (Books.refuse _ _ _).ite ((Books.reply _ _ _ _).ite (((change _ _).trans (Books.reply _ _ _ _)).ite ?_))
  split
  · exact Books.refuseRange _ _ _
  · exact (change _ _).trans (Books.reply _ _ _ _)

theorem doChanOpen_books (a : ChanOpenArgs) (t : Ticket) (s : State) : Books s (doChanOpen a t s) := by
  have records : Books s ((s.setChan a.channel (openedChannel a)).setRing a.channel (openedRing a)) :=
    (Books.setChan s _ _).trans (.setRing _ _ _)
  exact (Books.refuse _ _ _).ite ((Books.refuse _ _ _).ite ((Books.refuseRange _ _ _).ite ((Books.refuseRange _ _ _).ite
    ((Books.refuseRange _ _ _).ite ((records.trans (Books.emit _ _)).trans (Books.reply _ _ _ _))))))

theorem doChanBind_books (a : ChanBindArgs) (t : Ticket) (s : State) : Books s (doChanBind a t s) := by
  have bind : Books s (bindChannel s a) := by
    unfold bindChannel
    exact ((((((moveBind_books s _ _).trans (Books.setView _ _ _)).trans (endCue_books _ _ _)).trans (endStart_books _ _ _)).trans
      (releaseList_books _ _)).trans (releaseViewOpt_books _ _)).trans (Books.modChan _ _ _)
  have bounds : ∀ p, Books s (refuseBounds s t p) := fun p => (Books.refuseRange s t p).trans (.same rfl)
  unfold doChanBind
  refine (Books.refuse _ _ _).ite ((Books.refuse _ _ _).ite ((Books.refuseRange _ _ _).ite ?_))
  split
  · exact Books.refuse _ _ _
  · refine (Books.refuse _ _ _).ite ?_
    split
    · exact bounds _
    · exact bind.trans (Books.reply _ _ _ _)

theorem doChanOptions_books (a : ChanOptionsArgs) (t : Ticket) (s : State) : Books s (doChanOptions a t s) := by
  have options : ∀ l, Books s (setOptions s a l) := fun l => by
    unfold setOptions
    exact ((Books.modChan _ _ _).ite ((Books.modChan _ _ _).trans (courseChange_books _ _ _ _ _))).ite
      ((Books.modChan _ _ _).trans (recompute_books _ _ _ _))
  have bounds : ∀ p, Books s (refuseBounds s t p) := fun p => (Books.refuseRange s t p).trans (.same rfl)
  unfold doChanOptions
  refine (Books.refuse _ _ _).ite ((Books.refuse _ _ _).ite ((Books.refuseRange _ _ _).ite ?_))
  split
  · exact bounds _
  · exact (options _).trans (Books.reply _ _ _ _)

theorem doChanDepth_books (a : ChanDepthArgs) (t : Ticket) (s : State) : Books s (doChanDepth a t s) :=
  (Books.refuse _ _ _).ite ((Books.modChan _ _ _).trans (Books.reply _ _ _ _))

theorem doChanCue_books (a : PositionArgs) (t : Ticket) (s : State) : Books s (doChanCue a t s) :=
  (Books.refuse _ _ _).ite ((Books.refuse _ _ _).ite ((Books.refuseEmptyClip _ _).ite (cueTo_books _ _ _ _)))

theorem doChanJump_books (a : PositionArgs) (t : Ticket) (s : State) : Books s (doChanJump a t s) := by
  have jump : Books s (jumpRunning s a.channel t a.position) := (courseChange_books _ _ _ _ _).trans (Books.reply _ _ _ _)
  exact (Books.refuse _ _ _).ite ((Books.refuse _ _ _).ite ((Books.refuseEmptyClip _ _).ite (jump.ite (cueTo_books _ _ _ _))))

theorem doChanStart_books (a : ChanStartArgs) (t : Ticket) (s : State) : Books s (doChanStart a t s) := by
  have start : ∀ u ask, Books u (startAs u a.channel ask a.time t) := fun u ask => by
    cases ask with
    | now => exact fireStart_books _ _ _ _ _
    | atTime => exact (fireStart_books _ _ _ _ _).ite (Books.modChan _ _ _)
    | atReference => exact (Books.modChan u _ _).trans (.setWait _ _ _)
  unfold doChanStart
  refine (Books.refuse _ _ _).ite ((Books.refuse _ _ _).ite ?_)
  split
  · exact Books.refuseRange _ _ _
  · exact (Books.refuseEmptyClip _ _).ite (((endStart_books s a.channel .superseded).when (fun u => cutCue_books u _)).trans (start _ _))

theorem doChanHold_books (c : Nat) (t : Ticket) (s : State) : Books s (doChanHold c t s) := by
  have still : Books s (holdStill s c) := by
    have ended := (endCue_books s c .superseded).trans (endStart_books _ c .superseded)
    exact ended.ite (ended.trans (Books.modChan _ _ _))
  have running : Books s (holdRunning s c) := by
    unfold holdRunning
    refine Books.trans ?_ (Books.modChan _ _ _)
    split
    · exact ((endCourse_books s c .superseded).trans (revokeFrom_books _ _ _ _)).trans (recompute_books _ _ _ _)
    · exact (endCourse_books s c .superseded).trans (revokeFrom_books _ _ _ _)
  exact (Books.refuse _ _ _).ite ((Books.refuse _ _ _).ite ((running.ite still).trans (Books.reply _ _ _ _)))

theorem doChanSpeed_books (a : ChanSpeedArgs) (t : Ticket) (s : State) : Books s (doChanSpeed a t s) := by
  have running : Books s (speedRunning s a.channel t (clampSpeed a.speed) a.apply) :=
    ((Books.reply _ _ _ _).ite ((courseChange_books _ _ _ _ _).trans (Books.reply _ _ _ _))).ite (courseChange_books _ _ _ _ _)
  have still : Books s (speedStill s a.channel (clampSpeed a.speed)) := (Books.modChan _ _ _).trans (recompute_books _ _ _ _)
  unfold doChanSpeed
  refine (Books.refuse _ _ _).ite ?_
  split
  · exact running
  · exact (Books.modChan _ _ _).trans (Books.reply _ _ _ _)
  · exact still.trans (Books.reply _ _ _ _)

theorem doPinSet_books (a : PinSetArgs) (t : Ticket) (s : State) : Books s (doPinSet a t s) := by
  have set : ∀ p, Books s (setPinRange s a p) := fun p =>
    ((Books.setView s a.view _).trans (Books.setPin _ p _)).trans (coverFrames_books _ _ _)
  unfold doPinSet
  refine (Books.refuse _ _ _).ite ((Books.refuse _ _ _).ite ((Books.refuseRange _ _ _).ite ((Books.refuseRange _ _ _).ite ?_)))
  split
  · exact Books.refuse _ _ _
  · exact (Books.refuse _ _ _).ite ((Books.refuse _ _ _).ite ((set _).trans (Books.reply _ _ _ _)))

theorem doPinDrop_books (p : Nat) (t : Ticket) (s : State) : Books s (doPinDrop p t s) := by
  have drop : Books s (dropPin s p) :=
    ((uncover_books s p _).trans (Books.setPin _ p _)).trans (Books.setView _ _ _)
  exact (Books.refuse _ _ _).ite (drop.trans (Books.reply _ _ _ _))

theorem doVolumeDefine_books (a : VolumeDefineArgs) (t : Ticket) (s : State) : Books s (doVolumeDefine a t s) := by
  unfold doVolumeDefine
  dsimp only
  split
  · exact Books.replyDetail _ _ _ _ _
  · refine (Books.replyDetail _ _ _ _ _).ite ?_
    split
    · exact Books.replyDetail _ _ _ _ _
    · exact (Books.refuse _ _ _).ite ((defineVolume_books s a).trans (Books.reply _ _ _ _))

theorem doVolumeDissolve_books (v : Nat) (t : Ticket) (s : State) : Books s (doVolumeDissolve v t s) :=
  (Books.refuse _ _ _).ite ((Books.replyDetail _ _ _ _ _).ite ((Books.refuse _ _ _).ite ((dissolve_books s v).trans (Books.reply _ _ _ _))))

theorem doMemberHold_books (m : Nat) (t : Ticket) (s : State) : Books s (doMemberHold m t s) := by
  have hold : Books s (holdMember s m t) :=
    (((Books.modLink _ _ _).trans (setMember_books _ _ _)).trans (Books.reply _ _ _ _)).ite
      (((Books.modLink _ _ _).trans (Books.modLink _ _ _)).trans (setMember_books _ _ _))
  exact (Books.refuse _ _ _).ite ((Books.refuse _ _ _).ite ((Books.refuse _ _ _).ite ((Books.refuse _ _ _).ite hold)))

theorem doMemberRelease_books (m : Nat) (t : Ticket) (s : State) : Books s (doMemberRelease m t s) :=
  (Books.refuse _ _ _).ite ((Books.refuse _ _ _).ite (((setMember_books _ _ _).trans (endHold_books _ _ _)).trans (Books.reply _ _ _ _)))

theorem doMemberReturn_books (m : Nat) (t : Ticket) (s : State) : Books s (doMemberReturn m t s) :=
  (Books.refuse _ _ _).ite ((Books.reply _ _ _ _).ite ((Books.modLink _ _ _).trans (Books.emit _ _)))

/-- Every owner's act only adds. -/
theorem ownerAct_books (r : Request) (t : Ticket) (s : State) : Books s (ownerAct r t s) := by
  cases r with
  | noticeMode a => exact doNotice_books a t s
  | noticeTake a => exact doNoticeTake_books a t s
  | serviceClear =>
    have wait : ∀ (u : State) (w : Option ClearWait), Books u { u with port := { u.port with clearWait := w } } := fun u w => .same rfl
    show Books s (doServiceClear t s)
    unfold doServiceClear
    exact ((clearBlocks_books s).trans (wait _ _)).trans (answerClear_books _)
  | clipMake a => exact doClipMake_books a t s
  | clipAmend a => exact doClipAmend_books a t s
  | groupFix a => exact doGroupFix_books a t s
  | groupList a => exact doGroupList_books a t s
  | groupDrop a => exact doGroupDrop_books a t s
  | clipRetire a => exact doClipRetire_books a t s
  | clipAsk c => exact (Books.refuse _ _ _).ite (Books.reply _ _ _ _)
  | frameAsk a => exact (Books.refuse _ _ _).ite (Books.reply _ _ _ _)
  | viewDefine a => exact doViewDefine_books a t s
  | chanOpen a => exact doChanOpen_books a t s
  | chanBind a => exact doChanBind_books a t s
  | chanOptions a => exact doChanOptions_books a t s
  | chanDepth a => exact doChanDepth_books a t s
  | chanCue a => exact doChanCue_books a t s
  | chanStart a => exact doChanStart_books a t s
  | chanHold c => exact doChanHold_books c t s
  | chanSpeed a => exact doChanSpeed_books a t s
  | chanJump a => exact doChanJump_books a t s
  | chanClose c => exact (Books.refuse _ _ _).ite (closeChannel_books s c t)
  | chanAsk a => exact (Books.refuse _ _ _).ite (Books.reply _ _ _ _)
  | slotReturn a =>
    have back : ∀ f, Books s (s.modRing a.channel f) := .modRing s _
    exact (Books.refuse _ _ _).ite ((back _).trans (Books.reply _ _ _ _))
  | pinSet a => exact doPinSet_books a t s
  | pinDrop p => exact doPinDrop_books p t s
  | storeAsk a => exact (Books.refuse _ _ _).ite (Books.reply _ _ _ _)
  | volumeDefine a => exact doVolumeDefine_books a t s
  | volumeDissolve v => exact doVolumeDissolve_books v t s
  | memberHold m => exact doMemberHold_books m t s
  | memberRelease m => exact doMemberRelease_books m t s
  | memberReturn m => exact doMemberReturn_books m t s
  | memberAsk m => exact (Books.refuse _ _ _).ite (Books.reply _ _ _ _)
  | calibrate p =>
    have arm : ∀ q : Measurement, Books s { s with time := { s.time with measure := q } } := fun q => .same rfl
    exact (Books.refuse _ _ _).ite ((Books.refuseRange _ _ _).ite (arm _))
  | timeAsk => exact Books.reply _ _ _ _


end Sys2Proof.Machine

/-! SUPPORT. The books through what follows within an event, the events, and every command but DONE_RECEIVED. -/

namespace Sys2Proof.Machine

/-! ## What follows within an event -/

theorem completeCue_books (s : State) (c : Nat) (short : Bool) (n : Nat) : Books s (completeCue s c short n) := by
  unfold completeCue
  dsimp only
  split
  · exact (Books.reply _ _ _ _).trans (.modChan _ _ _)
  · exact .modChan _ _ _

theorem cueStep_books {s t : State} (h : cueStep s = some t) : Books s t := by
  obtain ⟨c, -, hc⟩ := firstSome_mem h
  unfold cueOne at hc
  split at hc
  · cases hc
    exact completeCue_books s _ _ _
  · cases hc

theorem settleStep_books {s t : State} (h : settleStep s = some t) : Books s t := by
  rcases settleStep_cases h with h | h | h | h | h | h | h | h
  · exact handStep_books h
  · exact judgeOverload_books h
  · exact grantHead_books h
  · exact resolveStep_books h
  · exact extendStep_books h
  · exact cueStep_books h
  · exact deliverStep_books h
  · exact issueStep_books h

theorem settleFor_books (n : Nat) (s : State) : Books s (settleFor n s) := by
  induction n generalizing s with
  | zero => exact .refl s
  | succ n ih =>
    unfold settleFor
    dsimp only
    split
    · rename_i t ht
      exact ((refreshUrgency_books s).trans (settleStep_books ht)).trans (ih t)
    · exact refreshUrgency_books s

theorem settle_books (s : State) : Books s (settle s) := settleFor_books _ s

/-- The flags of a condition are set record by record (R178). -/
theorem applyChanConditions_twf (p : Port) (was now : Tab Channel) (h : twf Channel.initial now = true) :
    twf Channel.initial (applyChanConditions p was now) = true := by
  have fold : ∀ (l : List Nat) (f : Tab Channel → Nat → Tab Channel),
      (∀ t c, twf Channel.initial t = true → twf Channel.initial (f t c) = true) →
      ∀ t, twf Channel.initial t = true → twf Channel.initial (l.foldl f t) = true := by
    intro l f step
    induction l with
    | nil => exact fun _ h => h
    | cons c l ih => exact fun t h => ih _ (step t c h)
  refine fold _ _ (fun t c h => ?_) now h
  dsimp only
  split
  · exact h
  · exact twf_tset _ _ _ h

theorem finish_books (s0 s : State) : Books s (finish s0 s) := by
  have conditions : Books s (applyConditions s0 s) := 
    (Books.ofChans s _ (applyChanConditions_twf s.port s0.chans s.chans)).trans (.same rfl)
  have answers : ∀ u, Books u (writeAnswers u) := fun u =>
    (Books.foldl (f := writeAnswer) (fun _ _ => .same rfl) _ u).trans (.same rfl)
  have port : ∀ u, Books u (writePortRecord s0 u) := fun u => (Books.emit u _).ite (.refl u)
  have line : ∀ u, Books u (judgeLine u) := fun u => (Books.refl u).ite (.same rfl)
  exact ((conditions.trans (answers _)).trans (port _)).trans (line _)

theorem startRead_books (s : State) : Books s (startRead s) := Books.ite (.same rfl) (.refl s)

theorem endEvent_books {s x : State} (s0 : State) (h : Books s x) : Books s (endEvent s0 x) :=
  ((h.trans (settle_books x)).trans (finish_books s0 _)).trans (startRead_books _)

/-! ## Channel events -/

theorem firePending_books (s : State) (c time : Nat) (b : Bool) : Books s (firePending s c time b) := by
  unfold firePending
  split
  · exact ((cancelWait_books s c).trans (.modChan _ c _)).trans (fireStart_books _ _ _ _ _)
  · exact cancelWait_books s c

theorem skipPeriod_books (s : State) (c : Nat) : Books s (skipPeriod s c) := .modRing s c _

theorem settlePeriod_books (s : State) (c : Nat) : Books s (settlePeriod s c).1 := by
  unfold settlePeriod
  dsimp only
  split
  · exact .refl s
  · split
    · exact skipPeriod_books s c
    · split
      · exact writeMiss_books _ _ _ _
      · split
        · exact writeRepeat_books _ _ _ _
        · exact writeMiss_books _ _ _ _

theorem duePeriod_books (s : State) (c : Nat) : Books s (duePeriod s c) := by
  have moved : Books s (settleAndMove s c) := by
    unfold settleAndMove
    exact ((settlePeriod_books s c).trans (.modChan _ c _)).trans (.modChan _ c _)
  have course : ∀ u, Books u (reachCourse u c) := fun u => by
    unfold reachCourse
    split
    · exact (applyCourse_books u c).ite (.refl u)
    · exact .refl u
  have passed : ∀ f, Books s (reachCourse ((releasePassed s c).modChan c f) c) := fun f =>
    ((moved.trans (dropPassed_books _ c _)).trans (.modChan _ c f)).trans (course _)
  unfold duePeriod
  exact (passed _).ite ((passed _).trans (endPlay_books _ c _))

theorem endTransfer_books (s : State) (c : Nat) : Books s (endTransfer s c) := by
  have finished : ∀ u x, Books u (finishTransfer u c x) := fun u x => by
    unfold finishTransfer
    exact ((((Books.emit u _).trans (.setRing _ c _)).trans (.times (publishOne_books c) _ _)).trans (releaseHold_books _ _)).trans
      (.modChan _ c _)
  have closed : ∀ u x, Books u (finishClosing u c x) := fun u x =>
    (((Books.modRing u c _).trans (releaseHold_books _ _)).trans (dropRing_books _ c)).trans (answerClear_books _)
  unfold endTransfer
  split
  · exact .refl s
  · exact ((Books.emit s _).trans (closed _ _)).ite ((Books.emit s _).trans (finished _ _))

/-! ## Links -/

theorem endDrain_books (s : State) (m : Nat) : Books s (endDrain s m) := by
  have answered : ∀ u : State, Books u (match (u.link m).hold with
    | some t => u.reply t .ok (holdItems (u.link m))
    | none => u) := fun u => by
      split
      · exact .reply _ _ _ _
      · exact .refl u
  unfold endDrain
  exact ((setMember_books s m _).trans (answered _)).trans (.modLink _ m _)

theorem failMember_books (s : State) (m : Nat) : Books s (failMember s m) := (setMember_books s m _).trans (endHold_books _ m _)

theorem judgeMember_books (s : State) (m : Nat) : Books s (judgeMember s m) :=
  (failMember_books s m).ite ((endDrain_books s m).ite (.refl s))

theorem expireTag_books (s : State) (m t : Nat) : Books s (expireTag s m t) :=
  (((Books.modLink s m _).trans (readLost_ended _ m t)).trans (.modLink _ m _)).trans (judgeMember_books _ m)

theorem endReturn_books (s : State) (m cause : Nat) : Books s (endReturn s m cause) := by
  unfold endReturn
  split
  · exact (Books.reply _ _ _ _).trans (.modLink _ m _)
  · exact .refl s

theorem dropLink_books (s : State) (m : Nat) : Books s (dropLink s m) :=
  ((Books.modLink s m _).trans ((failMember_books _ m).ite (failTags_books _ m))).trans (endReturn_books _ m 1)

theorem takeResetDone_books (s : State) (m : Nat) : Books s (takeResetDone s m) := by
  unfold takeResetDone returnMember
  refine (Books.modLink s m _).ite ?_
  split
  · exact ((Books.modLink s m _).trans (setMember_books _ m _)).trans (.reply _ _ _ _)
  · exact .refl s

theorem raiseLink_books (s : State) (m : Nat) : Books s (raiseLink s m) := (Books.modLink s m _).ite (.emit s _)

/-! ## The Timebase Unit -/

/-- The timebase but for its start waits. -/
theorem retime_books (s : State) (x : Timebase) (h : x.waits = s.time.waits) : Books s { s with time := x } :=
  .same (by simp only [State.books, h])

theorem cycle_books (s : State) : Books s { s with time := s.time.cycle } := by
  refine retime_books s _ ?_
  unfold Timebase.cycle
  rfl

theorem pulseMeasure_books (s : State) : Books s (pulseMeasure s) := by
  have judged : Books s (judgeMeasure s) := by
    unfold judgeMeasure Timebase.accept
    dsimp only
    repeat' split
    all_goals exact .same rfl
  unfold pulseMeasure
  dsimp only
  split
  · exact .refl s
  · exact .same rfl
  · exact Books.ite (.same rfl) judged

theorem limitMeasure_books (s : State) : Books s (limitMeasure s) := by
  unfold limitMeasure
  dsimp only
  split <;> exact .same rfl

theorem takePulse_books (s : State) : Books s (takePulse s) := by
  have stamped : Books s { s with time := { s.time with lastPulse := some s.now } } := .same rfl
  have found : ∀ u : State, Books u (if u.time.monitor then { u with time := { u.time with refLost := false } } else u) := fun u =>
    Books.ite (.same rfl) (.refl u)
  exact ((stamped.trans (pulseMeasure_books _)).trans (found _)).trans (.foldl (fun s c => firePending_books s c _ _) _ _)

/-! ## The Request Port -/

theorem writeWindow_books (s : State) (offset width value : Nat) : Books s (writeWindow s offset width value) := by
  have tail : Books s (writeTail s value) := Books.ite (.same rfl) (.refl s)
  have head : Books s (writeHead s value) := Books.ite (.same rfl) (.refl s)
  have enable : Books s (enableRings s) := by
    unfold enableRings
    split
    · exact Books.ite (.same rfl) (.refl s)
    · exact .refl s
    · exact .same rfl
  have disable : Books s (disableRings s) := (Books.refl s).ite (.same rfl)
  have setup : Books s { s with port := writeSetup s.port offset width value } := by
    unfold writeSetup
    repeat' split
    all_goals exact .same rfl
  unfold writeWindow
  split
  · exact tail
  · exact head
  · exact enable.ite (disable.ite (.refl s))
  · exact setup

theorem setHand_books (s : State) (h : Hand) : Books s (s.setHand h) := .same rfl

theorem takeBadKind_books (s s0 : State) (tag kind : Nat) (failed : Bool) : Books s (takeBadKind s0 tag kind failed s) :=
  endEvent_books s0 (.same rfl)

theorem takeRequest_books (s s0 : State) (tag : Nat) (r : Request) : Books s (takeRequest s0 tag r (ownerAct r) s) :=
  endEvent_books _ (Books.trans (s := s) (t := beginTake s) (.same rfl) (ownerAct_books r _ _))

theorem takeAs_books {tag : Nat} {r : Request} {act : Ticket → State → State} (s : State) (h : act = ownerAct r) :
    Books s (takeAs tag r act s) := by
  subst h
  exact ((takeRequest_books s s tag r).ite (setHand_books s _)).ite (.refl s)

theorem takeThis_books (s s0 : State) (q : InHand) : Books s (takeThis s0 s q) := by
  cases q with
  | request tag r => exact takeRequest_books s s0 tag r
  | unknown tag kind => exact takeBadKind_books s s0 tag kind false
  | failed => exact takeBadKind_books s s0 0 0 true

theorem endTaking_books (s s0 : State) : Books s (endTaking s0 s) := by
  unfold endTaking
  split
  · exact takeThis_books s s0 _
  · exact endEvent_books s0 (.refl s)

/-! ## Every command -/

/-- The books open at the reset values (R105, R184). -/
theorem powerOnReset_books (s : State) : ∃ t, exec .powerOnReset s = .next t ∧ Books s t := by
  exact ⟨_, rfl, ⟨fun _ => ⟨rfl, rfl, rfl, rfl, rfl, rfl, rfl, rfl, rfl, rfl, rfl⟩, fun _ => rfl, rfl⟩, fun _ _ => ⟨rfl, nofun⟩⟩

/-- Every command but DONE_RECEIVED answers next and keeps the books. -/
theorem exec_books (s : State) (i : Instr) (done : ∀ l m, i ≠ .doneReceived l m) : ∃ t, exec i s = .next t ∧ Books s t := by
  have window : ∀ offset width value, Books s (endEvent s (writeWindow s offset width value)) := fun offset width value =>
    endEvent_books s (writeWindow_books s offset width value)
  have silent : Books s { s with time := { s.time with refLost := true } } := .same rfl
  cases i with
  | powerOnReset => exact powerOnReset_books s
  | portWordWrite offset width value =>
    exact ⟨_, rfl, ((writeWindow_books s _ _ _).trans (endTaking_books _ s)).ite (window _ _ _)⟩
  | reqTailWrite value => exact ⟨_, rfl, window 12 4 value⟩
  | ansHeadWrite value => exact ⟨_, rfl, (writeWindow_books s 28 4 value).trans (endTaking_books _ s)⟩
  | ringEnableOn => exact ⟨_, rfl, window 32 4 1⟩
  | ringEnableOff => exact ⟨_, rfl, window 32 4 0⟩
  | requestReadDone entry =>
    refine ⟨_, rfl, ?_⟩
    split
    · exact (setHand_books s _).trans (endTaking_books _ s)
    · exact endEvent_books s (setHand_books s _)
    · exact endEvent_books s (.refl s)
  | requestTake =>
    refine ⟨_, rfl, ?_⟩
    split
    · exact takeThis_books s s _
    · exact .refl s
  | badKind tag kind readFailed =>
    exact ⟨_, rfl, ((takeBadKind_books s s _ _ _).ite (setHand_books s _)).ite (.refl s)⟩
  | groupListFetchEnd list =>
    refine ⟨_, rfl, ?_⟩
    split
    · exact ((endFetch_books s _ list).trans (settle_books _)).trans (endTaking_books _ s)
    · exact .refl s
  | cueExpiry c => exact ⟨_, rfl, (endEvent_books s (cutCue_books s c)).ite (.refl s)⟩
  | startTimeReached c => exact ⟨_, rfl, (endEvent_books s (firePending_books s c _ _)).ite (.refl s)⟩
  | startWaitLimit c => exact ⟨_, rfl, (endEvent_books s (firePending_books s c _ _)).ite (.refl s)⟩
  | dueTime c => exact ⟨_, rfl, (endEvent_books s (duePeriod_books s c)).ite (.refl s)⟩
  | transferEnd c => exact ⟨_, rfl, (endEvent_books s (endTransfer_books s c)).ite (.refl s)⟩
  | doneReceived m d => exact absurd rfl (done m d)
  | tagExpiry m t => exact ⟨_, rfl, (endEvent_books s (expireTag_books s m t)).ite (.refl s)⟩
  | linkDown m => exact ⟨_, rfl, endEvent_books s (dropLink_books s m)⟩
  | linkUp m => exact ⟨_, rfl, endEvent_books s (raiseLink_books s m)⟩
  | resetDone m => exact ⟨_, rfl, endEvent_books s (takeResetDone_books s m)⟩
  | returnExpiry m => exact ⟨_, rfl, (endEvent_books s (endReturn_books s m 2)).ite (.refl s)⟩
  | refPulse high => exact ⟨_, rfl, (endEvent_books s (takePulse_books s)).ite (.refl s)⟩
  | calLimit => exact ⟨_, rfl, (endEvent_books s (limitMeasure_books s)).ite (.refl s)⟩
  | refLostTimeout => exact ⟨_, rfl, (endEvent_books s silent).ite (.refl s)⟩
  | localCycle => exact ⟨_, rfl, cycle_books s⟩
  | _ => exact ⟨_, rfl, takeAs_books s rfl⟩

end Sys2Proof.Machine

/-! SUPPORT. `StepsKeepCanonicalForm` and `OnlyReadsWriteStoreMemory` (R105, R132). -/

namespace Sys2Proof.Machine

/-! ## DONE_RECEIVED -/

theorem placeBytes_wf (e : Entry) (b : Bool) (l : List Byte) (d : Nat) (m : Memory) (h : m.wf = true) :
    (placeBytes e b d l m).wf = true := by
  induction l generalizing d m with
  | nil => exact h
  | cons x l ih => exact ih _ _ (Memory.wf_writeByte _ _ h)

theorem applyExtracts_wf (e : Entry) (b : Bool) (data : List Byte) (xs : List Extract) (m : Memory) (h : m.wf = true) :
    (applyExtracts e b data xs m).wf = true := by
  unfold applyExtracts
  induction xs generalizing m with
  | nil => exact h
  | cons x xs ih => exact ih _ (placeBytes_wf _ _ _ _ _ h)

/-- An act that keeps the books but for store memory, which it leaves in its canonical form. -/
structure Stores (s t : State) : Prop where
  tables : TablesHeld s → TablesHeld t
  entries : twf none s.store.entries = true → twf none t.store.entries = true
  pages : twf none s.store.entries = true → PagesHeld s → PagesHeld t
  memory : MemoryHeld s → MemoryHeld t

theorem Books.stores {s t : State} (a : Books s t) : Stores s t :=
  ⟨a.tables, a.entries, a.pages, fun h => by unfold MemoryHeld; rw [a.memory]; exact h⟩

theorem Stores.trans {s t u : State} (a : Stores s t) (b : Stores t u) : Stores s u :=
  ⟨fun h => b.tables (a.tables h), fun h => b.entries (a.entries h), fun w h => b.pages (a.entries w) (a.pages w h),
    fun h => b.memory (a.memory h)⟩

theorem placeData_stores (s : State) (id : Nat) (b : Bool) (data : List Byte) (xs : List Extract) :
    Stores s (placeData s id b data xs) := by
  unfold placeData
  split
  · exact ⟨fun h => h, fun h => h, fun _ => (pagesHeld_congr rfl rfl).2, applyExtracts_wf _ _ _ _ _⟩
  · exact (Books.refl s).stores

theorem placed_stores (s : State) (m tag : Nat) (how : ReadEnd) : Stores s (placed s m tag how) := by
  unfold placed
  split
  · cases fillOf s m tag with
    | none => exact (Books.refl s).stores
    | some x => exact placeData_stores _ _ _ _ _
  · exact (Books.refl s).stores

/-- What a DONE under a BUSY tag does beside its data. -/
theorem takeDone_busy {s : State} {m : Nat} {d : DoneMsg} {x : Nat} {cls : Class}
    (busy : tget TagState.free (s.link m).tags d.tag = .busy x cls) :
    Books (placed (setTag s m d.tag .free) m d.tag (doneEnd s m d)) (takeDone s m d) := by
  unfold takeDone
  rw [busy]
  exact ((readEnded_books _ m d.tag _).trans (.modLink _ m _)).trans (judgeMember_books _ m)

theorem takeDone_stores (s : State) (m : Nat) (d : DoneMsg) : Stores s (takeDone s m d) := by
  cases tag : tget TagState.free (s.link m).tags d.tag with
  | free => unfold takeDone; rw [tag]; exact (Books.refl s).stores
  | quarantined => unfold takeDone; rw [tag]; exact (Books.modLink s m _).stores
  | busy x cls =>
    exact ((Books.modLink s m _).stores.trans (placed_stores _ m d.tag _)).trans (takeDone_busy tag).stores

/-! ## Every step -/

theorem exec_stores (s : State) (i : Instr) : ∃ t, exec i s = .next t ∧ Stores s t := by
  by_cases done : ∀ l m, i ≠ .doneReceived l m
  · obtain ⟨t, ht, books⟩ := exec_books s i done
    exact ⟨t, ht, books.stores⟩
  · push Not at done
    obtain ⟨l, m, rfl⟩ := done
    refine ⟨_, rfl, ?_⟩
    split
    · exact (takeDone_stores s l m).trans (endEvent_books s (.refl _)).stores
    · exact (Books.refl s).stores

theorem step_stores {s t : State} (h : step s = .next t) : Stores s t := by
  unfold step at h
  split at h
  · cases h
    exact (Books.refl s).stores
  · rename_i i rest _
    obtain ⟨u, hu, stores⟩ := exec_stores { s with pending := rest } i
    rw [hu] at h
    cases h
    exact (Books.same (s := s) (t := { s with pending := rest }) rfl).stores.trans stores

/-- Settles O6: each command keeps each table's form and the page balance part by part (`exec_books`); the data of a DONE is
written byte by byte (`takeDone_stores`). -/
theorem stepsKeepCanonicalForm : Obligations.StepsKeepCanonicalForm := by
  refine ⟨fun s t memory tables h => ?_, fun s t tables pages h => ?_⟩
  · have stores := step_stores h
    exact ⟨stores.memory memory, stores.tables tables⟩
  · obtain ⟨-, -, -, -, entries, -⟩ := tables
    exact (step_stores h).pages entries pages

/-- Settles O11: no act but the placing of a read's data writes store memory (`Books.memory`). -/
theorem onlyReadsWriteStoreMemory : Obligations.OnlyReadsWriteStoreMemory := by
  intro i s t h done a
  obtain ⟨u, hu, books⟩ := exec_books s i done
  rw [hu] at h
  cases h
  rw [books.memory]

end Sys2Proof.Machine

/-! SUPPORT. The end of a read at the Read Scheduler, and a member's reads when it leaves ONLINE: the links stand, and every entry
that nothing fills (R132 to R136). -/

namespace Sys2Proof.Machine

/-! ## Acts on entries that are being filled -/

/-- An act on the read records and on entries with a fill context: every link stands, and every entry without one. -/
structure Serves (s t : State) : Prop where
  links : t.links = s.links
  idle : ∀ j, s.context j = none → t.context j = none ∧ t.entry j = s.entry j

theorem Acts.links {S : Nat → Prop} {s t : State} (a : Acts S s t) : t.links = s.links :=
  show t.beyond.links = s.beyond.links by rw [a.beyond]

namespace Serves
variable {s t u : State} {id : Nat}

theorem refl (s : State) : Serves s s := ⟨rfl, fun _ h => ⟨h, rfl⟩⟩

theorem trans (a : Serves s t) (b : Serves t u) : Serves s u :=
  ⟨b.links.trans a.links, fun j h => by
    obtain ⟨ha, ea⟩ := a.idle j h
    obtain ⟨hb, eb⟩ := b.idle j ha
    exact ⟨hb, eb.trans ea⟩⟩

theorem ite {p : Prop} [Decidable p] {a b : State} (ha : Serves s a) (hb : Serves s b) : Serves s (if p then a else b) := by
  split <;> assumption

theorem foldl {α : Type} {f : State → α → State} (h : ∀ s a, Serves s (f s a)) (l : List α) (s : State) :
    Serves s (l.foldl f s) := by
  induction l generalizing s with
  | nil => exact refl s
  | cons a l ih => exact (h s a).trans (ih _)

/-- A write of the read records. -/
theorem reads (s : State) (x : List UnitRead) : Serves s { s with sched := { s.sched with reads := x } } :=
  ⟨rfl, fun _ h => ⟨h, rfl⟩⟩

/-- A write of store memory. -/
theorem memory (s : State) (m : Memory) : Serves s { s with store := { s.store with memory := m } } :=
  ⟨rfl, fun _ h => ⟨h, rfl⟩⟩

/-- An act on one entry, which has a fill context. -/
theorem filling (h : s.context id ≠ none) (links : t.links = s.links) (b : Touches id s t) : Serves s t :=
  ⟨links, fun j hj => by
    have ne : j ≠ id := fun e => h (e ▸ hj)
    exact ⟨b.contexts j ne hj, b.entries j ne⟩⟩

end Serves

section
variable {s t : State} {id : Nat}

theorem OpensNone.serves (h : OpensNone s t) : Serves s t :=
  ⟨by rw [h.only], fun j hj => ⟨h.contexts j hj, h.only.entry j⟩⟩

theorem releaseMany_serves (s : State) (n : Nat) : Serves s (releaseMany s n) := (releaseMany_opensNone s n).serves

theorem failEntry_serves (r : FailReason) (h : s.context id ≠ none) : Serves s (failEntry s id r) :=
  .filling h (failEntry_acts (S := fun _ => False) s id r).links (failEntry_touches s id r)

theorem convert_serves (s : State) (id i own : Nat) : Serves s (convert s id i own) := (convert_opensNone s id i own).serves

/-- A piece that cannot be read is rebuilt, or its entry fails. -/
theorem rebuild_serves {p : Prop} [Decidable p] (i : Nat) (r : FailReason) (h : s.context id ≠ none) :
    Serves s (if p then convert s id i 1 else releaseMany (failEntry s id r) 1) :=
  (convert_serves s id i 1).ite ((failEntry_serves r h).trans (releaseMany_serves _ 1))

/-! ## The end of a read -/

theorem freeEntry_links (s : State) (id : Nat) : (freeEntry s id).links = s.links := by
  unfold freeEntry returnPages
  split <;> rfl

theorem releaseWithin_opensNone (s : State) (id : Nat) : OpensNone s (releaseWithin s id) := by
  unfold releaseWithin
  split
  · split
    · exact gatherOne_opensNone _ _ _
    · split
      · exact .modContext s id _
      · exact releaseMany_opensNone s 1
  · exact releaseMany_opensNone s 1

theorem readyEntry_touches (s : State) (id : Nat) : Touches id s (readyEntry s id) :=
  (((Touches.modEntry s id _).trans (tellReferrers_touches _ id _)).trans (closeContext_opensNone _ id).touches).trans
    (stampIfUnused_touches _ id)

theorem readyEntry_links (s : State) (id : Nat) : (readyEntry s id).links = s.links := by
  have closed : ∀ u : State, (closeContext u id).links = u.links := fun u => by rw [closeContext_sched u id]
  exact (stampIfUnused_acts (S := fun _ => False) _ id).links.trans (closed _)

theorem completePiece_links (s : State) (id : Nat) : (completePiece s id).links = s.links := by
  unfold completePiece
  dsimp only
  split
  · split
    · exact readyEntry_links _ id
    · rfl
  · rfl

theorem completePiece_touches (s : State) (id : Nat) : Touches id s (completePiece s id) := by
  have counted : Touches id s (s.modEntry id (fun e => { e with outstanding := e.outstanding - 1 })) := .modEntry s id _
  unfold completePiece
  dsimp only
  split
  · exact (counted.trans (readyEntry_touches _ id)).ite counted
  · exact counted

theorem placeData_touches (s : State) (j id : Nat) (b : Bool) (data : List Byte) (xs : List Extract) :
    Touches j s (placeData s id b data xs) := by
  unfold placeData
  split
  · exact .same rfl rfl
  · exact .refl s

/-- What an OK read leaves after its data is placed, its piece written and its record released (R132). -/
def pieceEnded (s : State) (r : UnitRead) (q : FillPiece) (data : List Byte) (b : Bool) (st : PieceStatus) : State :=
  releaseWithin (modPiece (placeData s r.context b data q.piece.extracts) r.context r.piece (fun q => { q with status := st }))
    r.context

theorem pieceEnded_touches (s : State) (r : UnitRead) (q : FillPiece) (data : List Byte) (b : Bool) (st : PieceStatus) :
    Touches r.context s (pieceEnded s r q data b st) :=
  (placeData_touches s _ _ _ _ _).trans ((modPiece_opensNone _ _ _ _).trans (releaseWithin_opensNone _ _)).touches

theorem pieceEnded_links (s : State) (r : UnitRead) (q : FillPiece) (data : List Byte) (b : Bool) (st : PieceStatus) :
    (pieceEnded s r q data b st).links = s.links := by
  have placed : (placeData s r.context b data q.piece.extracts).links = s.links := by
    unfold placeData
    split <;> rfl
  exact ((modPiece_opensNone _ _ _ _).trans (releaseWithin_opensNone _ _)).serves.links.trans placed

/-- An OK read ends its piece, or leaves its set one read fewer. -/
theorem readOk_cases (s : State) (r : UnitRead) (q : FillPiece) (data : List Byte) : ∃ b st,
    readOk s r q data = pieceEnded s r q data b st ∨ readOk s r q data = completePiece (pieceEnded s r q data b st) r.context := by
  unfold readOk
  split
  · rename_i n b _
    dsimp only
    split
    · exact ⟨b, .complete, .inr rfl⟩
    · exact ⟨b, .set (n - 1) true, .inl rfl⟩
  · exact ⟨false, .complete, .inr rfl⟩

theorem readOk_serves {r : UnitRead} (q : FillPiece) (data : List Byte) (h : s.context r.context ≠ none) :
    Serves s (readOk s r q data) := by
  obtain ⟨b, st, eq | eq⟩ := readOk_cases s r q data <;> rw [eq]
  · exact .filling h (pieceEnded_links s r q data b st) (pieceEnded_touches s r q data b st)
  · exact .filling h ((completePiece_links _ _).trans (pieceEnded_links s r q data b st))
      ((pieceEnded_touches s r q data b st).trans (completePiece_touches _ _))

/-- The end of a read at the Read Scheduler. -/
theorem readEnded_serves (s : State) (m tag : Nat) (how : ReadEnd) : Serves s (readEnded s m tag how) := by
  unfold readEnded
  split
  · exact .refl s
  · rename_i r _
    refine (Serves.reads s _).trans (t := dropRead s r) ?_
    generalize dropRead s r = u
    have released := releaseMany_serves u 1
    dsimp only
    split
    · exact released
    · split
      · exact released
      · rename_i c hc
        have present : u.context r.context ≠ none := fun e => by rw [hc] at e; cases e
        split
        · refine Serves.ite (.filling present ?_ ?_) released
          · exact (freeEntry_links _ _).trans released.links
          · have closed : Touches r.context (releaseMany u 1) ((releaseMany u 1).setContext r.context none) :=
              .same rfl rfl fun j hj h => ((State.context_setContext _ _ _ _).trans (if_neg hj)).trans h
            exact ((releaseMany_opensNone u 1).touches.trans closed).trans (freeEntry_touches _ _)
        · split
          · exact released
          · split
            · exact readOk_serves _ _ present
            · exact rebuild_serves _ _ present

/-! ## A member that leaves ONLINE -/

theorem loseQueued_serves (s : State) (r : UnitRead) : Serves s (loseQueued s r) := by
  unfold loseQueued
  refine (Serves.reads s _).trans (t := dropRead s r) ?_
  dsimp only
  split
  · rename_i q hq
    obtain ⟨c, hc, -⟩ := Option.bind_eq_some_iff.1 hq
    exact rebuild_serves _ _ fun e => by rw [hc] at e; cases e
  · exact releaseMany_serves _ 1

theorem loseQueue_serves (m n : Nat) (s : State) : Serves s (loseQueue m n s) := by
  induction n generalizing s with
  | zero => exact .refl s
  | succ n ih =>
    unfold loseQueue
    split
    · exact (loseQueued_serves _ _).trans (ih _)
    · exact .refl s

theorem failConverting_serves (s : State) (m : Nat) : Serves s (failConverting s m) := by
  refine Serves.foldl (fun u c => ?_) _ s
  split
  · rename_i wants
    exact failEntry_serves _ fun e => by rw [e] at wants; cases wants
  · exact .refl u

theorem leaveOnline_serves (s : State) (m : Nat) : Serves s (leaveOnline s m) :=
  (loseQueue_serves m _ s).trans (failConverting_serves _ m)

end

end Sys2Proof.Machine

/-! SUPPORT. A link's acts: its reads failed with its member, the member's failure and the end of its drain (R147 to R151). -/

namespace Sys2Proof.Machine

/-! ## Acts on one link -/

/-- A link's act: it touches its link alone, leaves the tags that are not BUSY and the entries that nothing fills. -/
structure LinkAct (m : Nat) (s t : State) : Prop where
  does : Does { links := fun i => i = m } s t
  idle : ∀ j, s.context j = none → t.context j = none ∧ t.entry j = s.entry j
  rests : ∀ k, (s.tag m k).isBusy = false → t.tag m k = s.tag m k

/-- A link record is written: a touched one. -/
theorem Does.modLink {w : Touched} (s : State) (m : Nat) (f : Link → Link) (h : w.links m) : Does w s (s.modLink m f) := by
  refine ⟨⟨fun _ => rfl, fun _ => rfl, fun _ => rfl, fun _ => rfl, fun _ => rfl, fun _ => SettingsStand.ofPort rfl,
    fun _ => FlagsAdded.refl _ _, fun _ => rfl, fun c _ => ChanStands.refl s c, fun _ _ => rfl, fun i hi => ?_, rfl, List.prefix_rfl⟩,
    rfl, List.prefix_rfl⟩
  have other : (s.modLink m f).link i = s.link i := (State.link_modLink s m i f).trans (if_neg fun e => hi (by rw [e]; exact h))
  unfold LinkStands TagFollows State.tag
  rw [other]
  exact LinkStands.refl s i

/-- The Request Port is told of a member: a flag that every frame lets pass (R178). -/
theorem noteMember_does {w : Touched} (s : State) : Does w s (noteMember s) :=
  ⟨⟨fun _ => rfl, fun _ => rfl, fun _ => rfl, fun _ => rfl, fun _ => rfl,
    fun _ => ⟨rfl, rfl, rfl, rfl, rfl, rfl, rfl, rfl, rfl, rfl⟩, fun _ => ⟨PartFlag.member, rfl⟩, fun _ => rfl,
    fun c _ => ChanStands.refl s c, fun _ _ => rfl, fun m _ => LinkStands.refl s m, rfl, List.prefix_rfl⟩, rfl, List.prefix_rfl⟩

@[simp] theorem noteMember_link (s : State) (i : Nat) : (noteMember s).link i = s.link i := rfl

theorem State.link_modLink_self (s : State) (m : Nat) (f : Link → Link) : (s.modLink m f).link m = f (s.link m) :=
  (State.link_modLink s m m f).trans (if_pos rfl)

theorem State.link_congr {s t : State} (h : t.links = s.links) (i : Nat) : t.link i = s.link i := by unfold State.link; rw [h]

namespace LinkAct
variable {m : Nat} {s t u : State}

theorem refl (s : State) : LinkAct m s s := ⟨.refl s, fun _ h => ⟨h, rfl⟩, fun _ _ => rfl⟩

theorem trans (a : LinkAct m s t) (b : LinkAct m t u) : LinkAct m s u where
  does := a.does.trans b.does
  idle j h := by
    obtain ⟨ha, ea⟩ := a.idle j h
    obtain ⟨hb, eb⟩ := b.idle j ha
    exact ⟨hb, eb.trans ea⟩
  rests k h := by
    have first := a.rests k h
    exact (b.rests k (by rw [first]; exact h)).trans first

theorem ite {p : Prop} [Decidable p] (a : LinkAct m s t) (b : LinkAct m s u) : LinkAct m s (if p then t else u) := by
  split <;> assumption

/-- A further act, under a condition. -/
theorem when {p : Prop} [Decidable p] {f : State → State} (a : LinkAct m s t) (h : ∀ x, LinkAct m x (f x)) :
    LinkAct m s (if p then f t else t) := (a.trans (h t)).ite a

theorem serves (f : Follows s t) (h : Serves s t) : LinkAct m s t :=
  ⟨f.does, h.idle, fun k _ => by unfold State.tag; rw [State.link_congr h.links]⟩

/-- The link's record is written, and no tag of it that is not BUSY. -/
theorem modLink (f : Link → Link)
    (h : ∀ k, (s.tag m k).isBusy = false → tget TagState.free (f (s.link m)).tags k = s.tag m k) : LinkAct m s (s.modLink m f) :=
  ⟨.modLink s m f rfl, fun _ h => ⟨h, rfl⟩, fun k hk => by unfold State.tag; rw [State.link_modLink_self]; exact h k hk⟩

theorem reply (s : State) (q : Ticket) (r : Result) (is : List Item) : LinkAct m s (s.reply q r is) :=
  ⟨.reply s q r is, fun _ h => ⟨h, rfl⟩, fun _ _ => rfl⟩

end LinkAct

theorem tget_tags_tset (l : Link) (k i : Nat) (v : TagState) :
    tget TagState.free (tset TagState.free l.tags k v) i = if i = k then v else tget TagState.free l.tags i := tget_tset _ _ _ _ _

section
variable {s : State} {m : Nat}

/-- A BUSY tag's read fails with its member. -/
theorem failTag_acts {k : Nat} (busy : (s.tag m k).isBusy = true) : LinkAct m s (failTag m s k) := by
  refine (LinkAct.modLink _ fun i idle => ?_).trans (.serves (readEnded_follows _ m k .lost) (readEnded_serves _ m k .lost))
  have other : i ≠ k := by
    rintro rfl
    rw [busy] at idle
    cases idle
  exact (tget_tags_tset (s.link m) k i .quarantined).trans (if_neg other)

theorem failTag_link (s : State) (m k i : Nat) : (failTag m s k).link i =
    if i = m then { s.link m with tags := tset TagState.free (s.link m).tags k .quarantined } else s.link i :=
  (State.link_congr (readEnded_serves _ m k .lost).links i).trans (State.link_modLink s m i _)

theorem failTag_tag_ne {k j : Nat} (h : j ≠ k) : (failTag m s k).tag m j = s.tag m j := by
  unfold State.tag
  rw [failTag_link, if_pos rfl]
  exact (tget_tags_tset (s.link m) k j .quarantined).trans (if_neg h)

theorem mem_busyTags {l : Link} {k : Nat} (h : k ∈ l.busyTags) : (tget TagState.free l.tags k).isBusy = true := by
  simp only [Link.busyTags, Link.tagList, List.mem_map, List.mem_filter, List.mem_range] at h
  obtain ⟨x, ⟨⟨j, -, rfl⟩, busy⟩, rfl⟩ := h
  exact busy

theorem nodup_busyTags (l : Link) : l.busyTags.Nodup := by
  have tags : l.busyTags = (List.range Config.tags).filter (fun k => (tget TagState.free l.tags k).isBusy) := by
    unfold Link.busyTags Link.tagList
    rw [List.filter_map, List.map_map]
    exact List.map_id _
  rw [tags]
  exact List.nodup_range.filter _

/-- The BUSY reads of a link fail one by one: the tags still to come are BUSY. -/
theorem failTags_acts (s : State) (m : Nat) : LinkAct m s (failTags s m) := by
  have each : ∀ (l : List Nat) (u : State), l.Nodup → (∀ k ∈ l, (u.tag m k).isBusy = true) → LinkAct m u (l.foldl (failTag m) u) := by
    intro l
    induction l with
    | nil => exact fun u _ _ => .refl u
    | cons k l ih =>
      intro u distinct busy
      obtain ⟨fresh, distinct⟩ := List.nodup_cons.1 distinct
      refine (failTag_acts (busy k (List.mem_cons_self ..))).trans (ih _ distinct fun j hj => ?_)
      rw [failTag_tag_ne (by rintro rfl; exact fresh hj)]
      exact busy j (List.mem_cons_of_mem _ hj)
  exact each _ s (nodup_busyTags _) fun k => mem_busyTags

theorem failTags_kept (s : State) (m : Nat) : ((failTags s m).link m).kept = (s.link m).kept := by
  have each : ∀ (l : List Nat) (u : State), ((l.foldl (failTag m) u).link m).kept = (u.link m).kept := by
    intro l
    induction l with
    | nil => exact fun _ => rfl
    | cons k l ih =>
      intro u
      refine (ih _).trans ?_
      rw [failTag_link, if_pos rfl]
      rfl
  exact each _ s

/-! ## Member state changes -/

/-- The act of a member that leaves ONLINE, or of one whose reads fail with it. -/
theorem setMember_acts {new : MemberState} (h : new ≠ .online) : LinkAct m s (setMember s m new) := by
  have noted : ∀ u, LinkAct m u (noteMember u) := fun u => ⟨noteMember_does u, fun _ h => ⟨h, rfl⟩, fun _ _ => rfl⟩
  have written : LinkAct m s (s.modLink m (fun l => { l with member := new })) := .modLink _ fun _ _ => rfl
  have left : ∀ u, LinkAct m u (leaveOnline u m) := fun u => .serves (leaveOnline_follows u m) (leaveOnline_serves u m)
  unfold setMember
  dsimp only
  rw [if_neg h]
  exact ((written.when left).when fun u => failTags_acts u m).trans (noted _)

theorem kept_when {p : Prop} [Decidable p] {f : State → State} (h : ∀ u, ((f u).link m).kept = (u.link m).kept) (u : State) :
    ((if p then f u else u).link m).kept = (u.link m).kept := by
  split
  · exact h u
  · rfl

theorem setMember_kept {new : MemberState} (h : new ≠ .online) :
    ((setMember s m new).link m).kept = { s.link m with member := new, tags := [] } := by
  have written : ((s.modLink m (fun l => { l with member := new })).link m).kept = { s.link m with member := new, tags := [] } := by
    rw [State.link_modLink_self]
    rfl
  unfold setMember
  dsimp only
  rw [if_neg h, noteMember_link, kept_when (fun u => failTags_kept u m), kept_when (fun u => (leaveOnline_follows u m).links m)]
  exact written

theorem setMember_flag (s : State) (m : Nat) (new : MemberState) : (setMember s m new).port.flags &&& PartFlag.member ≠ 0 := by
  have noted : ∀ u, (noteMember u).port.flags &&& PartFlag.member ≠ 0 := fun u => by
    show (u.port.flags ||| PartFlag.member) &&& PartFlag.member ≠ 0
    generalize u.port.flags = x
    revert x
    decide
  exact noted _

/-! ## Failure, and the end of a drain -/

/-- What a member's failure and the end of its drain have in common: the new state, its flag, and the answer to the hold that
waits (R149, R151). -/
structure MemberSettled (m : Nat) (new : MemberState) (r : Result) (is : List Item) (s t : State) : Prop where
  acts : LinkAct m s t
  kept : (t.link m).kept = { s.link m with member := new, hold := none, tags := [] }
  flag : t.port.flags &&& PartFlag.member ≠ 0
  handed : ∀ q, (s.link m).hold = some q → (⟨q, r, false, 0, is⟩ : Handed) ∈ t.handed

/-- The hold is answered after the member's state has changed. -/
theorem MemberSettled.answer {new : MemberState} {r : Result} {is : List Item} {u : State} (h : new ≠ .online)
    (hold : (s.link m).hold = none → u = setMember s m new)
    (answered : ∀ q, (s.link m).hold = some q → u = (setMember s m new).reply q r is) :
    MemberSettled m new r is s (u.modLink m (fun l => { l with hold := none })) := by
  have cleared : ∀ v : State, LinkAct m v (v.modLink m (fun l => { l with hold := none })) := fun v => .modLink _ fun _ _ => rfl
  have acts := setMember_acts (s := s) (m := m) h
  have kept := setMember_kept (s := s) (m := m) h
  have out : LinkAct m s u ∧ u.links = (setMember s m new).links ∧ u.port = (setMember s m new).port ∧
      ∀ q, (s.link m).hold = some q → (⟨q, r, false, 0, is⟩ : Handed) ∈ u.handed := by
    cases hq : (s.link m).hold with
    | none => rw [hold hq]; exact ⟨acts, rfl, rfl, nofun⟩
    | some q =>
      rw [answered q hq]
      exact ⟨acts.trans (.reply _ q r is), rfl, rfl, fun p hp => by cases hp; exact handed_reply _ q r is⟩
  obtain ⟨acts, links, port, handed⟩ := out
  refine ⟨acts.trans (cleared u), ?_, ?_, handed⟩
  · rw [State.link_modLink_self, State.link_congr links]
    exact congrArg (fun l : Link => { l with hold := none }) kept
  · show u.port.flags &&& PartFlag.member ≠ 0
    rw [port]
    exact setMember_flag s m new

theorem setMember_hold {new : MemberState} (h : new ≠ .online) : ((setMember s m new).link m).hold = (s.link m).hold := by
  have hold := congrArg Link.hold (setMember_kept (s := s) (m := m) h)
  exact hold

theorem failMember_settled (s : State) (m : Nat) : MemberSettled m .failed .failed [] s (failMember s m) := by
  have hold := setMember_hold (s := s) (m := m) (new := .failed) (by decide)
  unfold failMember endHold
  rw [hold]
  refine .answer (by decide) (fun none => ?_) fun q some => ?_
  · rw [none]; rfl
  · rw [some]; rfl

theorem endDrain_settled (s : State) (m : Nat) : MemberSettled m .held .ok (holdItems (s.link m)) s (endDrain s m) := by
  have kept := setMember_kept (s := s) (m := m) (new := .held) (by decide)
  have hold := setMember_hold (s := s) (m := m) (new := .held) (by decide)
  have items := congrArg holdItems kept
  change holdItems ((setMember s m .held).link m) = holdItems (s.link m) at items
  unfold endDrain
  dsimp only
  rw [hold, items]
  refine .answer (by decide) (fun none => ?_) fun q some => ?_
  · rw [none]
  · rw [some]

/-- A member is left failing at three failures in a row, or with no tag but QUARANTINED ones (R149). -/
def Link.failing (l : Link) : Prop := (l.member = .online ∨ l.member = .draining) ∧ (l.failures = 3 ∨ l.allQuarantined = true)

theorem judgeMember_of_failing (h : (s.link m).failing) : judgeMember s m = failMember s m := if_pos h

theorem judgeMember_of_drained (nf : ¬(s.link m).failing) (draining : (s.link m).member = .draining)
    (busy : (s.link m).busyTags = []) : judgeMember s m = endDrain s m := (if_neg nf).trans (if_pos ⟨draining, busy⟩)

/-- What a read's end may do to its member: nothing, its failure, or the end of its drain. -/
theorem judgeMember_cases (s : State) (m : Nat) : judgeMember s m = s ∨ ∃ new r is, MemberSettled m new r is s (judgeMember s m) := by
  unfold judgeMember
  dsimp only
  split
  · exact .inr ⟨_, _, _, failMember_settled s m⟩
  · split
    · exact .inr ⟨_, _, _, endDrain_settled s m⟩
    · exact .inl rfl

theorem judgeMember_acts (s : State) (m : Nat) : LinkAct m s (judgeMember s m) := by
  rcases judgeMember_cases s m with h | ⟨_, _, _, settled⟩
  · rw [h]; exact .refl s
  · exact settled.acts

/-- The failure count, and whether the link is up, stand. -/
theorem judgeMember_counts (s : State) (m : Nat) : ((judgeMember s m).link m).failures = (s.link m).failures ∧
    ((judgeMember s m).link m).up = (s.link m).up := by
  rcases judgeMember_cases s m with h | ⟨_, _, _, settled⟩
  · rw [h]; exact ⟨rfl, rfl⟩
  · have failures := congrArg Link.failures settled.kept
    have up := congrArg Link.up settled.kept
    exact ⟨failures, up⟩

end

end Sys2Proof.Machine

/-! SUPPORT. The event of a read's end under a BUSY tag: frame, counts, tag, and what it does to the member (R144 to R151). -/

namespace Sys2Proof.Machine

/-! ## The end of a read under a BUSY tag -/

theorem allQuarantined_iff {l : Link} : l.allQuarantined = true ↔ ∀ k < 8, tget TagState.free l.tags k = .quarantined := by
  have tags : l.tagList.length = Config.tags := by simp [Link.tagList]
  unfold Link.allQuarantined Link.countTags
  rw [beq_iff_eq, ← tags, List.length_filter_eq_length_iff]
  simp [Link.tagList, Config.tags]

theorem busyTags_eq_nil {l : Link} : l.busyTags = [] ↔ ∀ k < 8, (tget TagState.free l.tags k).isBusy = false := by
  simp [Link.busyTags, Link.tagList, Config.tags]

/-- The end of a read, before its member is judged: the tag written, the read ended at its record, the end counted (R144 to
R146). -/
def readTaken (s : State) (m k : Nat) (v : TagState) (how : ReadEnd) : State :=
  (readEnded (setTag s m k v) m k how).modLink m (fun l => l.countEnd how.isOk)

/-- The event of a read's end. -/
def readEvent (s : State) (m k : Nat) (v : TagState) (how : ReadEnd) : State :=
  endEvent s (judgeMember (readTaken s m k v how) m)

section
variable {s : State} {m k : Nat} {v : TagState} {how : ReadEnd}

theorem readTaken_link (s : State) (m k : Nat) (v : TagState) (how : ReadEnd) : (readTaken s m k v how).link m =
    ({ s.link m with tags := tset TagState.free (s.link m).tags k v } : Link).countEnd how.isOk := by
  have written : (readEnded (setTag s m k v) m k how).link m = { s.link m with tags := tset TagState.free (s.link m).tags k v } :=
    (State.link_congr (readEnded_serves _ m k how).links m).trans (State.link_modLink_self s m _)
  unfold readTaken
  rw [State.link_modLink_self, written]

theorem readTaken_tag (s : State) (m k : Nat) (v : TagState) (how : ReadEnd) (j : Nat) :
    (readTaken s m k v how).tag m j = if j = k then v else s.tag m j := by
  unfold State.tag
  rw [readTaken_link]
  exact tget_tags_tset (s.link m) k j v

theorem readTaken_does (s : State) (m k : Nat) (v : TagState) (how : ReadEnd) :
    Does { links := fun i => i = m } s (readTaken s m k v how) :=
  ((Does.modLink s m _ rfl).trans (readEnded_follows _ m k how).does).trans (.modLink _ m _ rfl)

theorem readEvent_happens (s : State) (m k : Nat) (v : TagState) (how : ReadEnd) :
    Happens { links := fun i => i = m } s (judgeMember (readTaken s m k v how) m) (readEvent s m k v how) :=
  ((readTaken_does s m k v how).trans (judgeMember_acts _ m).does).happens s

theorem readEvent_frame : Frame { links := fun i => i = m } s (readEvent s m k v how) := (readEvent_happens s m k v how).frame

/-- What the event of a read's end leaves of the link's record but its tags is what the judging left. -/
theorem readEvent_kept (s : State) (m k : Nat) (v : TagState) (how : ReadEnd) :
    ((readEvent s m k v how).link m).kept = ((judgeMember (readTaken s m k v how) m).link m).kept :=
  (readEvent_happens s m k v how).ends.links m

theorem readEvent_counts (s : State) (m k : Nat) (v : TagState) (how : ReadEnd) :
    ((readEvent s m k v how).link m).failures = (if how.isOk then 0 else min 3 ((s.link m).failures + 1)) ∧
      ((readEvent s m k v how).link m).up = (s.link m).up := by
  obtain ⟨failures, up⟩ := judgeMember_counts (readTaken s m k v how) m
  have kept := readEvent_kept s m k v how
  have late := congrArg Link.failures kept
  have lateUp := congrArg Link.up kept
  rw [readTaken_link] at failures up
  exact ⟨late.trans failures, lateUp.trans up⟩

/-- The tag is as the end of its read left it; a FREE one may be taken at once (R143). -/
theorem readEvent_tag (idle : v.isBusy = false) : (readEvent s m k v how).tag m k = v ∨
    (v = .free ∧ ∃ c, (readEvent s m k v how).tag m k = .busy (s.time.house + 10800000) c) := by
  have happens := readEvent_happens s m k v how
  have tag : (judgeMember (readTaken s m k v how) m).tag m k = v := by
    have taken : (readTaken s m k v how).tag m k = v := (readTaken_tag s m k v how k).trans (if_pos rfl)
    exact ((judgeMember_acts _ m).rests k (by rw [taken]; exact idle)).trans taken
  have now : (judgeMember (readTaken s m k v how) m).now = s.time.house := happens.does.now
  rcases happens.ends.tags m k with h | ⟨h, c, hc⟩
  · exact .inl (h.trans tag)
  · rw [now] at hc
    exact .inr ⟨tag.symm.trans h, c, hc⟩

/-- A member that the judging of a read's end changes, once the event is over. -/
theorem readEvent_settled {new : MemberState} {r : Result} {is : List Item}
    (h : MemberSettled m new r is (readTaken s m k v how) (judgeMember (readTaken s m k v how) m)) :
    ((readEvent s m k v how).link m).member = new ∧ (readEvent s m k v how).port.flags &&& PartFlag.member ≠ 0 ∧
      ∀ q, (s.link m).hold = some q → ((readEvent s m k v how).link m).hold = none ∧
        Answered s (readEvent s m k v how) q.kind q.tag r 0 is := by
  have happens := readEvent_happens s m k v how
  have kept := (readEvent_kept s m k v how).trans h.kept
  have member := congrArg Link.member kept
  have hold := congrArg Link.hold kept
  refine ⟨member, happens.ends.partFlags.bit h.flag, fun q hq => ⟨hold, happens.answered (h.handed q ?_)⟩⟩
  rw [readTaken_link]
  exact hq

/-- The third failure in a row, or the last of the 8 tags QUARANTINED, fails the member (R149). -/
theorem readEvent_fails (member : (s.link m).member = .online ∨ (s.link m).member = .draining)
    (cause : (if how.isOk then 0 else min 3 ((s.link m).failures + 1)) = 3 ∨
      (v = .quarantined ∧ ∀ j < 8, j ≠ k → s.tag m j = .quarantined)) :
    ((readEvent s m k v how).link m).member = .failed ∧ (readEvent s m k v how).port.flags &&& PartFlag.member ≠ 0 ∧
      ∀ q, (s.link m).hold = some q → ((readEvent s m k v how).link m).hold = none ∧
        Answered s (readEvent s m k v how) q.kind q.tag .failed 0 [] := by
  have failing : ((readTaken s m k v how).link m).failing := by
    refine ⟨by rw [readTaken_link]; exact member, ?_⟩
    rcases cause with failures | ⟨quarantined, rest⟩
    · left
      rw [readTaken_link]
      exact failures
    · right
      refine allQuarantined_iff.2 fun j hj => (readTaken_tag s m k v how j).trans ?_
      split
      · exact quarantined
      · rename_i ne
        exact rest j hj ne
  refine readEvent_settled ?_
  rw [judgeMember_of_failing failing]
  exact failMember_settled _ m

/-- The last BUSY tag of a DRAINING member that does not fail ends its drain, with its counts (R151). -/
theorem readEvent_drains (member : (s.link m).member = .draining)
    (failures : (if how.isOk then 0 else min 3 ((s.link m).failures + 1)) ≠ 3) (idle : v.isBusy = false)
    (rest : ∀ j < 8, j ≠ k → (s.tag m j).isBusy = false) (spare : ∃ j < 8, (if j = k then v else s.tag m j) ≠ .quarantined) :
    ((readEvent s m k v how).link m).member = .held ∧ (readEvent s m k v how).port.flags &&& PartFlag.member ≠ 0 ∧
      ∀ q, (s.link m).hold = some q → ((readEvent s m k v how).link m).hold = none ∧
        Answered s (readEvent s m k v how) q.kind q.tag .ok 0 [item2 ((s.link m).drainOk + if how.isOk then 1 else 0),
          item2 ((s.link m).drainFailed + if how.isOk then 0 else 1)] := by
  have standing : ¬((readTaken s m k v how).link m).failing := by
    rintro ⟨-, count | quarantined⟩
    · rw [readTaken_link] at count
      exact failures count
    · obtain ⟨j, hj, other⟩ := spare
      exact other ((readTaken_tag s m k v how j).symm.trans (allQuarantined_iff.1 quarantined j hj))
  have draining : ((readTaken s m k v how).link m).member = .draining := by rw [readTaken_link]; exact member
  have drained : ((readTaken s m k v how).link m).busyTags = [] := busyTags_eq_nil.2 fun j hj => by
    show ((readTaken s m k v how).tag m j).isBusy = false
    rw [readTaken_tag]
    split
    · exact idle
    · rename_i ne
      exact rest j hj ne
  have items : holdItems ((readTaken s m k v how).link m) = [item2 ((s.link m).drainOk + if how.isOk then 1 else 0),
      item2 ((s.link m).drainFailed + if how.isOk then 0 else 1)] := by
    rw [readTaken_link]
    cases how <;> simp [holdItems, Link.countEnd, ReadEnd.isOk, member]
  refine items ▸ readEvent_settled ?_
  rw [judgeMember_of_drained standing draining drained]
  exact endDrain_settled _ m

end

end Sys2Proof.Machine

/-! SUPPORT. READY entries in use: each stands through the grants and reclaims of the Frame Store (R111, R113). -/

namespace Sys2Proof.Machine

/-! ## READY entries in use -/

/-- An entry stands READY with its pages under `n` references at least, and nothing fills it. -/
structure Seat (s : State) (id : Nat) (pages : List Nat) (n : Nat) : Prop where
  idle : s.context id = none
  entry : ∃ e, s.entry id = some e ∧ e.state = .ready ∧ e.pages = pages ∧ n ≤ e.refs

/-- An act that leaves every READY entry that a list entry uses. -/
structure Keeps (s t : State) : Prop where
  wf : twf none s.store.entries = true → twf none t.store.entries = true
  seats : twf none s.store.entries = true → ∀ id pages n, 0 < n → Seat s id pages n → Seat t id pages n

namespace Keeps
variable {s t u : State}

theorem refl (s : State) : Keeps s s := ⟨id, fun _ _ _ _ _ h => h⟩

theorem trans (a : Keeps s t) (b : Keeps t u) : Keeps s u :=
  ⟨fun w => b.wf (a.wf w), fun w id pages n pos h => b.seats (a.wf w) id pages n pos (a.seats w id pages n pos h)⟩

theorem ite {p : Prop} [Decidable p] (a : Keeps s t) (b : Keeps s u) : Keeps s (if p then t else u) := by
  split <;> assumption

/-- The entry records that nothing fills stand. -/
theorem idle (b : Books s t) (h : ∀ j, s.context j = none → t.context j = none ∧ t.entry j = s.entry j) : Keeps s t :=
  ⟨b.entries, fun _ id _ _ _ ⟨hc, e, he, rest⟩ => by
    obtain ⟨context, entry⟩ := h id hc
    exact ⟨context, e, entry.trans he, rest⟩⟩

theorem serves (b : Books s t) (h : Serves s t) : Keeps s t := .idle b h.idle

/-- The entry records and the fill contexts stand. -/
theorem same (b : Books s t) (he : t.store.entries = s.store.entries) (hc : t.sched.contexts = s.sched.contexts) : Keeps s t :=
  .idle b fun j h => by
    unfold State.context State.entry at *
    rw [he, hc]
    exact ⟨h, rfl⟩

/-- An act on the record of an entry that is not READY, or that no list entry uses. -/
theorem touches {j : Nat} (b : Books s t) (a : Touches j s t)
    (h : twf none s.store.entries = true → ∀ e, s.entry j = some e → e.state = .ready → e.refs = 0) : Keeps s t :=
  ⟨b.entries, fun w id pages n pos ⟨hc, e, he, ready, hp, hn⟩ => by
    have ne : id ≠ j := by
      rintro rfl
      have := h w e he ready
      omega
    exact ⟨a.contexts id ne hc, e, (a.entries id ne).trans he, ready, hp, hn⟩⟩

/-- A count of an entry rises. -/
theorem counted (s : State) (j : Nat) (f : Entry → Entry) (h : ∀ e, (f e).holding = e.holding) (hr : ∀ e, e.refs ≤ (f e).refs) :
    Keeps s (s.modEntry j f) := by
  refine ⟨(Books.counted s j f h).entries, fun _ id pages n _ ⟨hc, e, he, ready, hp, hn⟩ => ?_⟩
  by_cases eq : id = j
  · subst eq
    obtain ⟨pagesSame, stateSame, -⟩ : (f e).pages = e.pages ∧ (f e).state = e.state ∧ (f e).granted = e.granted := by
      simpa [Entry.holding] using h e
    exact ⟨hc, f e, by rw [State.entry_modEntry, he]; rfl, stateSame.trans ready, pagesSame.trans hp, hn.trans (hr e)⟩
  · exact ⟨hc, e, ((State.entry_setEntry s j id _).trans (if_neg eq)).trans he, ready, hp, hn⟩

end Keeps

section
variable {s t : State}

/-! ## The Frame Store -/

theorem handOne_serves {id : Nat} (h : handOne s id = some t) : Serves s t := by
  cases hc : s.context id with
  | none =>
    unfold handOne at h
    rw [hc] at h
    cases h
  | some c =>
    have fails : ∀ r, Serves s (failEntry s id r) := fun r => failEntry_serves r (by rw [hc]; nofun)
    have spend : ∀ n, OpensNone s (s.modContext id (fun c => { c with reserve := c.reserve - n })) := fun n => .modContext s id _
    unfold handOne at h
    rw [hc] at h
    dsimp only at h
    repeat' (split at h)
    all_goals first
      | (cases h; done)
      | (simp only [Option.some.injEq] at h; subst h)
    · exact ((spend _).trans (makeSet_opensNone _ _ _ _)).serves
    · exact fails _
    · exact (OpensNone.trans (t := makeRead _ _ _ _ _ _) ((spend _).trans (.same rfl rfl)) (modPiece_opensNone _ _ _ _)).serves
    · exact convert_serves _ _ _ _
    · exact fails _

theorem handStep_keeps (h : handStep s = some t) : Keeps s t := by
  refine .serves (handStep_books h) ?_
  obtain ⟨c, -, hc⟩ := firstSome_mem h
  split at hc
  · rename_i u hu
    cases hc
    exact handOne_serves hu
  · unfold spillReserve at hc
    split at hc
    · cases hc
    · split at hc
      · cases hc
      · cases hc
        exact ((OpensNone.modContext s _ _).trans (releaseMany_opensNone _ _)).serves

theorem judgeOverload_keeps (h : judgeOverload s = some t) : Keeps s t := by
  refine .idle (judgeOverload_books h) ?_
  obtain ⟨-, -, rfl⟩ | ⟨-, -, rfl⟩ := judgeOverload_cases h
  · obtain ⟨x, hx⟩ := endOverload_eq s
    rw [hx]
    exact fun j h => ⟨h, rfl⟩
  · exact fun j h => ⟨h, rfl⟩

theorem overloadJudged_keeps (s : State) : Keeps s (overloadJudged s) := by
  unfold overloadJudged
  cases h : judgeOverload s with
  | none => exact .refl s
  | some t => exact judgeOverload_keeps h

theorem Entry.refs_of_reclaimable {e : Entry} (h : e.reclaimable = true) : e.refs = 0 := by
  have unused := (Bool.and_eq_true_iff.1 h).1
  simp only [Entry.unused, Bool.and_eq_true, beq_iff_eq] at unused
  omega

theorem reclaimOne_keeps (s : State) : Keeps s (reclaimOne s) := by
  have books := reclaimOne_books s
  unfold reclaimOne at *
  split at books
  · rename_i id e head
    refine .touches books (freeEntry_touches s id) fun w x hx _ => ?_
    obtain ⟨he, reclaimable⟩ := (mem_entriesWhere w).1 (bestBy_mem head)
    rw [he] at hx
    cases hx
    exact Entry.refs_of_reclaimable reclaimable
  · exact .refl s

theorem reclaimFor_keeps (need n : Nat) (s : State) : Keeps s (reclaimFor need n s) := by
  induction n generalizing s with
  | zero => exact .refl s
  | succ n ih => exact ((reclaimOne_keeps s).trans (ih _)).ite (.refl s)

/-- A grant writes its own entry and opens its context (R111). -/
theorem granted_other (s : State) (id : Nat) (e : Entry) (kinds : List FillPiece) (allot : Nat) :
    ∀ j ≠ id, (s.context j = none → (granted s id e kinds allot).context j = none) ∧
      (granted s id e kinds allot).entry j = s.entry j := fun j ne =>
  ⟨fun h => ((State.context_setContext _ _ _ _).trans (if_neg ne)).trans h, 
    (State.entry_setEntry s id j (some (grantedEntry s e kinds allot))).trans (if_neg ne)⟩

theorem makeGrant_keeps {id : Nat} {e : Entry} (kinds : List FillPiece) (allot : Nat)
    (books : Books s (makeGrant s id e kinds allot))
    (other : twf none s.store.entries = true → ∀ j, (∃ x, s.entry j = some x ∧ x.state = .ready) → j ≠ id) :
    Keeps s (makeGrant s id e kinds allot) := by
  refine ⟨books.entries, fun w j pages n pos seat => ?_⟩
  have ne : j ≠ id := by
    obtain ⟨-, x, hx, ready, -⟩ := seat
    exact other w j ⟨x, hx, ready⟩
  obtain ⟨idle, x, hx, rest⟩ := (reclaimFor_keeps e.pageNeed s.store.entries.length s).seats w j pages n pos seat
  rw [makeGrant_eq]
  obtain ⟨context, entry⟩ := granted_other (reclaimFor e.pageNeed s.store.entries.length s) id e kinds allot j ne
  exact ⟨context idle, x, entry.trans hx, rest⟩

theorem grantHead_keeps (h : grantHead s = some t) : Keeps s t := by
  have books := grantHead_books h
  unfold grantHead at h
  split at h
  · cases h
  · rename_i id e head
    have waits : twf none s.store.entries = true → ∀ x, s.entry id = some x → x.state ≠ .ready := fun w x hx => by
      obtain ⟨he, waiting⟩ := (mem_entriesWhere w).1 (bestBy_mem head)
      rw [he] at hx
      cases hx
      have filling : e.state = .filling := by simpa using (Bool.and_eq_true_iff.1 waiting).1
      rw [filling]
      nofun
    have unused : twf none s.store.entries = true → ∀ x, s.entry id = some x → x.state = .ready → x.refs = 0 :=
      fun w x hx ready => absurd ready (waits w x hx)
    split at h
    · cases h
    · split at h
      · cases h
      · split at h
        · cases h
          exact .touches books (failWaiting_touches s id) unused
        · dsimp only at h
          split at h
          · cases h
            exact .touches books (.modEntry s id _ fun _ => rfl) unused
          · cases h
            exact makeGrant_keeps _ _ books fun w j ⟨x, hx, ready⟩ e => waits w x (e ▸ hx) ready

end

end Sys2Proof.Machine

/-! SUPPORT. READY entries in use to the end of an event; the last piece of an entry; where a read's data goes (R112, R132). -/

namespace Sys2Proof.Machine

section
variable {s t : State}

/-! ## READY entries in use through the consequences of an event -/

theorem freeRecord_keeps (s : State) : Keeps s (freeRecord s).1 := by
  unfold freeRecord
  dsimp only
  split
  · exact .refl s
  · exact reclaimOne_keeps s

theorem findOrAdmit_keeps (s : State) (k : Key) (v : Nat) (l : Location) : Keeps s (findOrAdmit s k v l).1 := by
  have books := findOrAdmit_books s k v l
  unfold findOrAdmit at *
  split at books
  · exact .refl s
  · refine ⟨books.entries, fun w id pages n pos seat => ?_⟩
    have free := freeRecord_free w
    obtain ⟨idle, e, he, rest⟩ := (freeRecord_keeps s).seats w id pages n pos seat
    have ne : id ≠ (freeRecord s).2 := by
      rintro rfl
      rw [free] at he
      cases he
    exact ⟨idle, e, ((State.entry_setEntry _ _ _ (some (newEntry s k v l s.store.arrivals))).trans (if_neg ne)).trans he, rest⟩

theorem resolveAt_keeps (s : State) (c i : Nat) : Keeps s (resolveAt s c i) := by
  have list : ∀ (u : State) (f : ListEntry → ListEntry), Keeps u (modList u c i f) := fun u f => .same (modList_books u c i f) rfl rfl
  have referred : ∀ u id, Keeps u (addRef u id) := fun u id =>
    (Keeps.counted u id (fun e => { e with refs := e.refs + 1 }) (fun _ => rfl) fun e => Nat.le_succ _).trans (overloadJudged_keeps _)
  unfold resolveAt
  dsimp only
  split
  · exact .refl s
  · split
    · split
      · exact list _ _
      · exact ((findOrAdmit_keeps _ _ _ _).trans (referred _ _)).trans (list _ _)
    · exact list _ _

theorem refreshUrgency_keeps (s : State) : Keeps s (refreshUrgency s) := by
  have entry : ∀ id, (refreshUrgency s).entry id = (s.entry id).map (withDeadlines (deadlinesGiven s) id) := fun id =>
    tget_tmap _ (fun id (o : Option Entry) => o.map (withDeadlines (deadlinesGiven s) id)) _ _ rfl
  exact ⟨(refreshUrgency_books s).entries, fun _ id _ _ _ ⟨idle, e, he, rest⟩ =>
    ⟨idle, withDeadlines (deadlinesGiven s) id e, by rw [entry, he]; rfl, rest⟩⟩

theorem writeNoData_blocks (s : State) (c : Nat) (d : Record) :
    (writeNoData s c d).store = s.store ∧ (writeNoData s c d).sched = s.sched := by
  unfold writeNoData
  dsimp only
  split <;> exact ⟨rfl, rfl⟩

/-- A record without data, or the start of a transfer, which holds its entry (R97, R98). -/
theorem deliverOne_keeps {c : Nat} (h : deliverOne s c = some t) : Keeps s t := by
  have books := deliverOne_books h
  have written : ∀ d, Keeps s (writeNoData s c d) := fun d =>
    .same (writeNoData_books s c d) (congrArg Store.entries (writeNoData_blocks s c d).1)
      (congrArg Sched.contexts (writeNoData_blocks s c d).2)
  have marked : ∀ u n, Keeps u (markWritten u c n) := fun u n => .same (markWritten_books u c n) rfl rfl
  unfold deliverOne at h
  dsimp only at h
  split at h
  · cases h
  split at h
  · cases h
    unfold writeRevoke
    exact (written _).trans (.same (.modRing _ c _) rfl rfl)
  split at h
  · unfold deliverPeriod beginIfReady at h
    dsimp only at h
    repeat' (split at h)
    all_goals first
      | (cases h; done)
      | skip
    · cases h
      exact (written _).trans (marked _ _)
    · obtain ⟨x, -, rfl⟩ := Option.map_eq_some_iff.1 h
      have taken : ∀ r, Keeps s (s.setRing c r) := fun r => .same (.setRing s c r) rfl rfl
      have held : ∀ u : State, Keeps u (addHold u x.1) := fun u => .counted u x.1 _ (fun _ => rfl) fun _ => Nat.le_refl _
      unfold beginTransfer
      exact ((taken _).trans (held _)).trans (marked _ _)
  · cases h

theorem extendStep_keeps (h : extendStep s = some t) : Keeps s t := by
  have books := extendStep_books h
  obtain ⟨c, -, hc⟩ := firstSome_mem h
  unfold extendOne at hc
  split at hc
  · obtain ⟨d, -, rfl⟩ := Option.map_eq_some_iff.1 hc
    exact .same books rfl rfl
  · cases hc

theorem cueStep_keeps (h : cueStep s = some t) : Keeps s t := by
  have completed : ∀ c b n, Keeps s (completeCue s c b n) := fun c b n => by
    refine .same (completeCue_books s c b n) ?_ ?_ <;>
    · unfold completeCue
      dsimp only
      split <;> rfl
  obtain ⟨c, -, hc⟩ := firstSome_mem h
  unfold cueOne at hc
  split at hc
  · cases hc
    exact completed _ _ _
  · cases hc

theorem issueStep_keeps (h : issueStep s = some t) : Keeps s t := by
  have books := issueStep_books h
  obtain ⟨m, -, hm⟩ := firstSome_mem h
  unfold issueOne at hm
  repeat' (split at hm)
  all_goals first
    | (cases hm; done)
    | (cases hm; exact .same books rfl rfl)

theorem settleStep_keeps (h : settleStep s = some t) : Keeps s t := by
  rcases settleStep_cases h with h | h | h | h | h | h | h | h
  · exact handStep_keeps h
  · exact judgeOverload_keeps h
  · exact grantHead_keeps h
  · obtain ⟨c, -, hc⟩ := firstSome_mem h
    obtain ⟨i, -, rfl⟩ := Option.map_eq_some_iff.1 hc
    exact resolveAt_keeps _ _ _
  · exact extendStep_keeps h
  · exact cueStep_keeps h
  · obtain ⟨c, -, hc⟩ := firstSome_mem h
    exact deliverOne_keeps hc
  · exact issueStep_keeps h

theorem settleFor_keeps (n : Nat) (s : State) : Keeps s (settleFor n s) := by
  induction n generalizing s with
  | zero => exact .refl s
  | succ n ih =>
    have fresh := refreshUrgency_keeps s
    unfold settleFor
    dsimp only
    split
    · rename_i t ht
      exact (fresh.trans (settleStep_keeps ht)).trans (ih t)
    · exact fresh

/-- What an event does once its own act is done leaves every READY entry in use. -/
theorem endEvent_keepsSeats (s0 s : State) : Keeps s (endEvent s0 s) := by
  have settled : Keeps s (settle s) := settleFor_keeps _ s
  obtain ⟨store, sched⟩ := startRead_finish_blocks s0 (settle s)
  exact settled.trans (.same ((finish_books s0 _).trans (startRead_books _)) (congrArg Store.entries store)
    (congrArg Sched.contexts sched))

end

/-! ## The last piece of an entry -/

section
variable {s : State} {id : Nat}

theorem closeContext_context (s : State) (id : Nat) : (closeContext s id).context id = none := by
  refine (releaseMany_opensNone _ _).contexts id ?_
  show (State.setContext _ id none).context id = none
  rw [State.context_setContext, if_pos rfl]

theorem stampIfUnused_used {e : Entry} (he : s.entry id = some e) (h : 0 < e.refs) : stampIfUnused s id = s := by
  have used : e.unused = false := by
    simp only [Entry.unused, Bool.and_eq_false_imp, Bool.and_eq_true, beq_iff_eq]
    omega
  unfold stampIfUnused
  rw [he]
  simp [used]

theorem readyEntry_seat {e : Entry} (he : s.entry id = some e) (h : 0 < e.refs) : Seat (readyEntry s id) id e.pages e.refs := by
  have entry : (closeContext (tellReferrers (s.modEntry id (fun e => { e with state := .ready })) id .ready) id).entry id =
      some { e with state := .ready } := by
    rw [(closeContext_sched _ id).entry]
    show (s.modEntry id (fun e => { e with state := .ready })).entry id = _
    rw [State.entry_modEntry, he]
    rfl
  unfold readyEntry
  dsimp only
  rw [stampIfUnused_used entry h]
  exact ⟨closeContext_context _ id, _, entry, rfl, rfl, Nat.le_refl _⟩

theorem completePiece_seat {e : Entry} (he : s.entry id = some e) (last : e.outstanding = 1) (h : 0 < e.refs) :
    Seat (completePiece s id) id e.pages e.refs := by
  have counted : (s.modEntry id (fun e => { e with outstanding := e.outstanding - 1 })).entry id =
      some { e with outstanding := e.outstanding - 1 } := by
    rw [State.entry_modEntry, he]
    rfl
  unfold completePiece
  dsimp only
  rw [counted]
  dsimp only
  rw [if_pos (by omega)]
  have ready := readyEntry_seat counted h
  exact ready

theorem pieceEnded_entry (s : State) (r : UnitRead) (q : FillPiece) (data : List Byte) (b : Bool) (st : PieceStatus) (j : Nat) :
    (pieceEnded s r q data b st).entry j = s.entry j := by
  have placed : (placeData s r.context b data q.piece.extracts).entry j = s.entry j := by
    unfold placeData
    split <;> rfl
  exact (((modPiece_opensNone _ _ _ _).trans (releaseWithin_opensNone _ _)).only.entry j).trans placed

/-- The OK read of a piece that no other read is for completes the piece (R132). -/
theorem readOk_last {r : UnitRead} {q : FillPiece} (data : List Byte) (h : q.status = .direct ∨ ∃ b, q.status = .set 1 b) :
    ∃ b st, readOk s r q data = completePiece (pieceEnded s r q data b st) r.context := by
  unfold readOk
  rcases h with status | ⟨b, status⟩ <;> rw [status]
  · exact ⟨false, .complete, rfl⟩
  · exact ⟨b, .complete, rfl⟩

theorem readOk_seat {r : UnitRead} {q : FillPiece} {e : Entry} (data : List Byte)
    (h : q.status = .direct ∨ ∃ b, q.status = .set 1 b) (he : s.entry r.context = some e) (last : e.outstanding = 1)
    (used : 0 < e.refs) : Seat (readOk s r q data) r.context e.pages e.refs := by
  obtain ⟨b, st, eq⟩ := readOk_last (s := s) (r := r) data h
  rw [eq]
  exact completePiece_seat ((pieceEnded_entry s r q data b st _).trans he) last used

end

/-! ## The data of a read -/

/-- A read of a standing fill, with its piece (R132). -/
theorem fillOf_eq_some {s : State} {m tag : Nat} {r : UnitRead} {q : FillPiece} : fillOf s m tag = some (r, q) ↔
    issuedRead s m tag = some r ∧ r.detached = false ∧
      ∃ c, s.context r.context = some c ∧ c.abandoned = false ∧ c.pieces[r.piece]? = some q := by
  unfold fillOf
  simp only [Option.bind_eq_some_iff, Option.ite_none_left_eq_some, Option.map_eq_some_iff, Prod.mk.injEq, Bool.not_eq_true]
  constructor
  · rintro ⟨_, issued, attached, c, context, stands, _, piece, rfl, rfl⟩
    exact ⟨issued, attached, c, context, stands, piece⟩
  · rintro ⟨issued, attached, c, context, stands, piece⟩
    exact ⟨r, issued, attached, c, context, stands, q, piece, rfl, rfl⟩

theorem readEnded_fill {s : State} {m tag : Nat} {r : UnitRead} {q : FillPiece} (data : List Byte)
    (h : fillOf s m tag = some (r, q)) : readEnded s m tag (.ok data) = readOk (dropRead s r) r q data := by
  obtain ⟨issued, attached, c, context, stands, piece⟩ := fillOf_eq_some.1 h
  have context : (dropRead s r).context r.context = some c := context
  unfold readEnded
  rw [issued]
  simp [attached, context, stands, piece]

theorem FillPiece.xored_iff {q : FillPiece} : q.xored = true ↔ ∃ n, q.status = .set n true := by
  unfold FillPiece.xored
  split
  · rename_i n b status
    constructor
    · rintro rfl; exact ⟨n, status⟩
    · rintro ⟨_, eq⟩
      rw [status] at eq
      cases eq
      rfl
  · rename_i other
    exact ⟨nofun, fun ⟨n, eq⟩ => (other n true eq).elim⟩

theorem readByte_placeBytes_ne {e : Entry} {xored : Bool} {a : Nat} (l : List Byte) (d : Nat) (m : Memory)
    (h : ∀ i < l.length, a ≠ byteAddress e (d + i)) : readByte (placeBytes e xored d l m) a = readByte m a := by
  induction l generalizing d m with
  | nil => rfl
  | cons b l ih =>
    refine (ih (d + 1) _ fun i hi => ?_).trans (readByte_writeByte_ne _ _ (h 0 (Nat.zero_lt_succ _)))
    rw [Nat.add_assoc, Nat.add_comm 1]
    exact h (i + 1) (Nat.succ_lt_succ hi)

/-- The data of a read leaves every byte that no extract places it at (R132). -/
theorem readByte_applyExtracts_ne {e : Entry} {xored : Bool} {data : List Byte} {a : Nat} (xs : List Extract) (m : Memory)
    (h : ∀ y ∈ xs, ∀ i < y.length, a ≠ byteAddress e (y.delivered + i)) :
    readByte (applyExtracts e xored data xs m) a = readByte m a := by
  unfold applyExtracts
  induction xs generalizing m with
  | nil => rfl
  | cons x xs ih =>
    rw [List.forall_mem_cons] at h
    refine (ih _ h.2).trans (readByte_placeBytes_ne _ _ _ fun i hi => h.1 i ?_)
    rw [List.length_take] at hi
    omega

end Sys2Proof.Machine

/-! SUPPORT. Store memory and the entry filled through the event of a read's end; DONE_RECEIVED and TAG_EXPIRY by their tag
(R132, R144, R145). -/

namespace Sys2Proof.Machine

section
variable {s : State} {m k : Nat} {v : TagState}

/-! ## Store memory through the event of a read's end -/

theorem readTaken_books (s : State) (m k : Nat) (v : TagState) (how : ReadEnd) :
    Books (placed (setTag s m k v) m k how) (readTaken s m k v how) := (readEnded_books _ m k how).trans (.modLink _ m _)

theorem readEvent_memory (s : State) (m k : Nat) (v : TagState) (how : ReadEnd) :
    (readEvent s m k v how).store.memory = (placed (setTag s m k v) m k how).store.memory :=
  (endEvent_books s ((readTaken_books s m k v how).trans (judgeMember_books _ m))).memory

/-- The data of a read that serves a standing fill is placed by its piece's extracts (R132). -/
theorem readEvent_places {r : UnitRead} {q : FillPiece} {x : Entry} (data : List Byte) (fill : fillOf s m k = some (r, q))
    (entry : s.entry r.context = some x) :
    (readEvent s m k v (.ok data)).store.memory = applyExtracts x q.xored data q.piece.extracts s.store.memory := by
  have fill : fillOf (setTag s m k v) m k = some (r, q) := fill
  have entry : (setTag s m k v).entry r.context = some x := entry
  rw [readEvent_memory]
  unfold placed
  rw [fill]
  dsimp only [Option.elim]
  unfold placeData
  rw [entry]
  rfl

theorem readEvent_lost_memory : (readEvent s m k v .lost).store.memory = s.store.memory := readEvent_memory s m k v .lost

/-- A read that serves no standing fill places nothing (R136). -/
theorem readEvent_unplaced (data : List Byte) (h : ∀ r q x, fillOf s m k = some (r, q) → s.entry r.context ≠ some x) :
    (readEvent s m k v (.ok data)).store.memory = s.store.memory := by
  rw [readEvent_memory]
  unfold placed
  cases fill : fillOf (setTag s m k v) m k with
  | none => rfl
  | some y =>
    have absent : (setTag s m k v).entry y.1.context = none := Option.eq_none_iff_forall_ne_some.2 fun x => h y.1 y.2 x fill
    dsimp only [Option.elim]
    unfold placeData
    rw [absent]
    rfl

/-! ## The entry whose last piece has come -/

theorem readEvent_keepsSeats (s : State) (m k : Nat) (v : TagState) (how : ReadEnd) :
    Keeps (readTaken s m k v how) (readEvent s m k v how) :=
  (Keeps.idle (judgeMember_books _ m) (judgeMember_acts _ m).idle).trans (endEvent_keepsSeats s _)

theorem readEvent_ready {r : UnitRead} {q : FillPiece} {x : Entry} (data : List Byte) (fill : fillOf s m k = some (r, q))
    (entry : s.entry r.context = some x) (last : q.status = .direct ∨ ∃ b, q.status = .set 1 b) (one : x.outstanding = 1)
    (used : 0 < x.refs) (w : twf none s.store.entries = true) :
    ∃ y, (readEvent s m k v (.ok data)).entry r.context = some y ∧ y.state = .ready ∧ y.pages = x.pages ∧ x.refs ≤ y.refs := by
  have seat : Seat (readTaken s m k v (.ok data)) r.context x.pages x.refs := by
    have ended : readEnded (setTag s m k v) m k (.ok data) = readOk (dropRead (setTag s m k v) r) r q data :=
      readEnded_fill data fill
    have ready : Seat (readOk (dropRead (setTag s m k v) r) r q data) r.context x.pages x.refs := readOk_seat data last entry one used
    obtain ⟨idle, entry⟩ := ended ▸ ready
    exact ⟨idle, entry⟩
  have wf : twf none (readTaken s m k v (.ok data)).store.entries = true := by
    refine (readTaken_books s m k v (.ok data)).entries ?_
    exact (placed_stores (setTag s m k v) m k (.ok data)).entries w
  obtain ⟨-, ready⟩ := (readEvent_keepsSeats s m k v (.ok data)).seats wf _ _ _ used seat
  exact ready

end

/-! ## DONE_RECEIVED and TAG_EXPIRY -/

section
variable {s : State} {l : Nat} {d : DoneMsg}

theorem exec_doneReceived (good : d.headerGood = true) : exec (.doneReceived l d) s = .next (endEvent s (takeDone s l d)) := by
  show Host.Outcome.next (if d.headerGood then _ else _) = _
  rw [if_pos good]

theorem exec_doneReceived_bad (bad : d.headerGood = false) : exec (.doneReceived l d) s = .next s := by
  show Host.Outcome.next (if d.headerGood then _ else _) = _
  rw [bad]
  rfl

theorem takeDone_of_busy {e : Nat} {cls : Class} (busy : s.tag l d.tag = .busy e cls) :
    takeDone s l d = judgeMember (readTaken s l d.tag .free (doneEnd s l d)) l := by
  have busy : tget TagState.free (s.link l).tags d.tag = .busy e cls := busy
  unfold takeDone
  rw [busy]
  rfl

theorem takeDone_of_free (free : s.tag l d.tag = .free) : takeDone s l d = s := by
  have free : tget TagState.free (s.link l).tags d.tag = .free := free
  unfold takeDone
  rw [free]

theorem takeDone_of_quarantined (quarantined : s.tag l d.tag = .quarantined) : takeDone s l d = setTag s l d.tag .free := by
  have quarantined : tget TagState.free (s.link l).tags d.tag = .quarantined := quarantined
  unfold takeDone
  rw [quarantined]

theorem exec_tagExpiry {k e : Nat} {cls : Class} (busy : s.tag l k = .busy e cls) (reached : e ≤ s.time.house) :
    exec (.tagExpiry l k) s = .next (readEvent s l k .quarantined .lost) := by
  have expired : tagExpired s l k = true := by
    have busy : tget TagState.free (s.link l).tags k = .busy e cls := busy
    unfold tagExpired
    rw [busy]
    exact decide_eq_true reached
  show Host.Outcome.next (if tagExpired s l k then _ else _) = _
  rw [if_pos expired]
  rfl

end

end Sys2Proof.Machine

/-! SUPPORT. `ReadEndsCounted` (R142 to R146, R149, R151). -/

namespace Sys2Proof.Machine

section
variable {s : State} {l : Nat} {d : DoneMsg}

theorem doneEnd_eq (s : State) (l : Nat) (d : DoneMsg) :
    doneEnd s l d = if d.ok && d.dataGood && d.data.length == wantedBytes s l d.tag then .ok d.data else .lost := rfl

theorem doneEnd_isOk (s : State) (l : Nat) (d : DoneMsg) :
    (doneEnd s l d).isOk = (d.ok && d.dataGood && d.data.length == wantedBytes s l d.tag) := by
  rw [doneEnd_eq]
  cases d.ok && d.dataGood && d.data.length == wantedBytes s l d.tag <;> rfl

/-- A DONE that ends no BUSY read is the event of an act on its tag at most. -/
theorem setTag_happens (s : State) (l k : Nat) (v : TagState) :
    Happens { links := fun i => i = l } s (setTag s l k v) (endEvent s (setTag s l k v)) := (Does.modLink s l _ rfl).happens s

theorem doneUnderFree (good : d.headerGood = true) (free : s.tag l d.tag = .free) :
    ∃ t, exec (.doneReceived l d) s = .next t ∧ Frame {} s t ∧ t.store.memory = s.store.memory := by
  refine ⟨_, exec_doneReceived good, ?_⟩
  rw [takeDone_of_free free]
  exact ⟨((Does.refl s).happens s).frame, (endEvent_books s (.refl s)).memory⟩

theorem doneUnderQuarantined (good : d.headerGood = true) (quarantined : s.tag l d.tag = .quarantined) :
    ∃ t, exec (.doneReceived l d) s = .next t ∧ Frame { links := fun m => m = l } s t ∧ t.store.memory = s.store.memory ∧
      (t.link l).kept = (s.link l).kept ∧
      (t.tag l d.tag = .free ∨ ∃ c, t.tag l d.tag = .busy (s.time.house + 10800000) c) := by
  refine ⟨_, exec_doneReceived good, ?_⟩
  rw [takeDone_of_quarantined quarantined]
  have happens := setTag_happens s l d.tag .free
  have link : (setTag s l d.tag .free).link l = { s.link l with tags := tset TagState.free (s.link l).tags d.tag .free } :=
    State.link_modLink_self s l _
  have kept := happens.ends.links l
  have tag : (setTag s l d.tag .free).tag l d.tag = .free := by
    unfold State.tag
    rw [link]
    exact (tget_tags_tset (s.link l) d.tag d.tag .free).trans (if_pos rfl)
  rw [link] at kept
  refine ⟨happens.frame, (endEvent_books s (.modLink s l _)).memory, kept, ?_⟩
  exact (happens.ends.tags l d.tag).imp (·.trans tag) fun ⟨_, taken⟩ => taken

/-- A DONE under a BUSY tag is the event of its read's end, the tag FREE (R144). -/
theorem doneUnderBusy (good : d.headerGood = true) {e : Nat} {cls : Class} (busy : s.tag l d.tag = .busy e cls) :
    exec (.doneReceived l d) s = .next (readEvent s l d.tag .free (doneEnd s l d)) := by
  rw [exec_doneReceived good, takeDone_of_busy busy]
  rfl

theorem FillPiece.eq_xored {q : FillPiece} {xored : Bool} (h : xored = true ↔ ∃ n, q.status = .set n true) : xored = q.xored :=
  Bool.eq_iff_iff.2 (h.trans FillPiece.xored_iff.symm)

end

/-- Settles O53: the event of a read's end is its tag written, its read ended, its end counted and its member judged
(`readEvent`). -/
theorem readEndsCounted : Obligations.ReadEndsCounted := by
  refine ⟨fun s l d bad => exec_doneReceived_bad bad, ?_, fun s l d good free => doneUnderFree good free,
    fun s l d good quarantined => doneUnderQuarantined good quarantined, ?_⟩
  · intro s l d e cls f ok good busy hok hf
    have isOk : (doneEnd s l d).isOk = ok := (doneEnd_isOk s l d).trans hok.symm
    have how : doneEnd s l d = if ok then .ok d.data else .lost := by rw [hok]; rfl
    obtain ⟨failures, up⟩ := readEvent_counts s l d.tag .free (doneEnd s l d)
    rw [isOk, ← hf] at failures
    refine ⟨_, doneUnderBusy good busy, readEvent_frame, failures, up, ?_, ?_, ?_, ?_, ?_⟩
    · exact (readEvent_tag (v := .free) rfl).imp_right And.right
    · exact fun member third => readEvent_fails member (.inl (by rw [isOk, ← hf]; exact third))
    · intro q member standing tag rest hold
      have drains := readEvent_drains (how := doneEnd s l d) (v := .free) member (by rw [isOk, ← hf]; exact standing) rfl rest
        ⟨d.tag, tag, by rw [if_pos rfl]; nofun⟩
      rw [isOk] at drains
      obtain ⟨held, flag, answered⟩ := drains
      obtain ⟨none, answer⟩ := answered q hold
      exact ⟨held, none, flag, answer⟩
    · intro r c q x xored yes issued attached context stands piece entry hx
      have fill := fillOf_eq_some.2 ⟨issued, attached, c, context, stands, piece⟩
      rw [how, yes, FillPiece.eq_xored hx]
      have places := readEvent_places (v := .free) d.data fill entry
      refine ⟨places, fun a apart => ?_, fun last one used w => readEvent_ready d.data fill entry last one used w⟩
      refine (congrArg (readByte · a) places).trans (readByte_applyExtracts_ne _ _ apart)
    · intro idle
      rw [how]
      cases ok with
      | false => exact readEvent_lost_memory
      | true =>
        refine readEvent_unplaced d.data fun r q x fill => ?_
        obtain ⟨issued, attached, c, context, stands, piece⟩ := fillOf_eq_some.1 fill
        exact idle.resolve_left nofun r c q x issued attached context stands piece
  · intro s l k e cls busy reached
    obtain ⟨failures, -⟩ := readEvent_counts s l k .quarantined .lost
    refine ⟨_, exec_tagExpiry busy reached, readEvent_frame, ?_, failures, readEvent_lost_memory, ?_, ?_⟩
    · exact (readEvent_tag (v := .quarantined) rfl).resolve_right fun h => by cases h.1
    · refine fun member cause => readEvent_fails member (cause.imp (fun two => ?_) fun rest => ⟨rfl, rest.2⟩)
      show min 3 ((s.link l).failures + 1) = 3
      omega
    · intro q member few tag rest spare hold
      have standing : min 3 ((s.link l).failures + 1) ≠ 3 := by omega
      obtain ⟨j, hj, ne, other⟩ := spare
      obtain ⟨held, flag, answered⟩ := readEvent_drains (how := .lost) (v := .quarantined) member standing rfl rest
        ⟨j, hj, by rw [if_neg ne]; exact other⟩
      obtain ⟨none, answer⟩ := answered q hold
      exact ⟨held, none, flag, answer⟩

end Sys2Proof.Machine

/-! SUPPORT. The one answer of an event that leaves nothing to follow; pins where every entry record is in use (R109, R114, R119,
R176). -/

namespace Sys2Proof.Machine

/-! ## An event that leaves nothing to follow -/

section
variable {s : State}

/-- Entries without deadlines, and no channel to give one. -/
theorem refreshUrgency_of_idle (chans : s.chans = []) (reads : s.sched.reads = [])
    (entries : ∀ c ∈ s.store.entries, ∀ e, c.2 = some e → e.deadlines = []) : refreshUrgency s = s := by
  have given : deadlinesGiven s = [] := by
    unfold deadlinesGiven
    rw [chans]
    rfl
  have fresh : tmap (fun id o => o.map (withDeadlines [] id)) s.store.entries = s.store.entries := by
    refine (List.map_congr_left fun c hc => ?_).trans (List.map_id _)
    obtain ⟨id, o⟩ := c
    cases o with
    | none => rfl
    | some e =>
      have none := entries _ hc e rfl
      have same : withDeadlines [] id e = e := by
        unfold withDeadlines
        rw [List.filter_nil, List.map_nil, ← none]
      exact congrArg (fun e => (id, some e)) same
  unfold refreshUrgency
  dsimp only
  rw [given, fresh, reads, List.map_nil, ← reads]

/-- A part without channels, rings, fills and reads, with pages to spare and no entry waiting, has nothing to follow. -/
theorem atRest_of_idle (chans : s.chans = []) (rings : s.rings = []) (contexts : s.sched.contexts = [])
    (reads : s.sched.reads = []) (calm : s.store.overload = false) (free : Config.overloadEnter ≤ s.store.freePages)
    (entries : ∀ c ∈ s.store.entries, ∀ e, c.2 = some e → e.deadlines = [] ∧ e.waiting = false) : AtRest s := by
  have queue : ∀ m, queueHead s m = none := fun m => by
    unfold queueHead
    rw [reads]
    rfl
  have waits : waitHead s = none := by
    have empty : entriesWhere s Entry.waiting = [] := by
      refine List.filterMap_eq_nil_iff.2 fun c hc => ?_
      cases he : c.2 with
      | none => rfl
      | some e => simp [(entries c hc e he).2]
    unfold waitHead
    rw [empty]
    rfl
  refine ⟨refreshUrgency_of_idle chans reads fun c hc e he => (entries c hc e he).1, settleStep_eq_none.2
    ⟨handStep_eq_none.2 ?_, judgeOverload_eq_none.2 ?_, grantHead_eq_none.2 ?_, resolveStep_eq_none.2 ?_, extendStep_eq_none.2 ?_,
      cueStep_eq_none.2 ?_, deliverStep_eq_none.2 ?_, issueStep_eq_none.2 fun m _ => issueOne_eq_none.2 ?_⟩⟩
  · rw [contexts]; exact List.forall_mem_nil _
  · rw [calm, if_neg (by decide)]
    exact Nat.le_trans free (Nat.le_add_right _ _)
  · rw [waits]; nofun
  · rw [chans]; exact List.forall_mem_nil _
  · rw [chans]; exact List.forall_mem_nil _
  · rw [chans]; exact List.forall_mem_nil _
  · rw [rings]; exact List.forall_mem_nil _
  · rw [queue]; nofun

/-! ## The one answer of an event -/

theorem mem_emit {o p : Output} : o ∈ (s.emit p).out ↔ o ∈ s.out ∨ o = p := by
  simp [State.emit]

theorem finish_answer {x : State} {h : Handed} (s0 : State) (handed : x.handed = [h]) {a : Word64} {answer : Answer}
    (written : Output.answer a answer ∈ (finish s0 x).out) (fresh : Output.answer a answer ∉ x.out) :
    ∃ w, answer = h.answer w := by
  have line : ∀ u, Output.answer a answer ∈ (judgeLine u).out → Output.answer a answer ∈ u.out := fun u hm => by
    unfold judgeLine at hm
    dsimp only at hm
    split at hm
    · exact hm
    · exact (mem_emit.1 hm).resolve_right nofun
  have record : ∀ u, Output.answer a answer ∈ (writePortRecord s0 u).out → Output.answer a answer ∈ u.out := fun u hm => by
    unfold writePortRecord at hm
    split at hm
    · exact (mem_emit.1 hm).resolve_right nofun
    · exact hm
  have conditions : (applyConditions s0 x).handed = [h] := handed
  have answers := record _ (line _ written)
  rw [writeAnswers_singleton conditions] at answers
  rcases mem_emit.1 answers with old | new
  · exact absurd old fresh
  · cases new
    exact ⟨_, rfl⟩

/-- The answers written by an event that leaves nothing to follow are those its act hands over. -/
theorem endEvent_answer {x : State} {h : Handed} (s0 : State) (rest : AtRest x) (handed : x.handed = [h]) {a : Word64}
    {answer : Answer} (written : Output.answer a answer ∈ (endEvent s0 x).out) (fresh : Output.answer a answer ∉ x.out) :
    ∃ w, answer = h.answer w := by
  unfold endEvent at written
  rw [settle_of_atRest rest] at written
  refine finish_answer s0 handed ?_ fresh
  rcases startRead_eq (finish s0 x) with same | ⟨-, reads⟩
  · rwa [same] at written
  · rw [reads] at written
    exact (mem_emit.1 written).resolve_right nofun

end

/-! ## A table of two entries before others -/

/-- The state with other entry records. -/
def State.withEntries (s : State) (x : Tab (Option Entry)) : State := { s with store := { s.store with entries := x } }

/-- Entry records 0 and 1, and those after them. -/
def pairTable (a b : Entry) (tail : Tab (Option Entry)) : Tab (Option Entry) := (0, some a) :: (1, some b) :: tail

/-- Records that all hold orphans in use, from number 2 to the last one there is. -/
structure Crowd (tail : Tab (Option Entry)) : Prop where
  full : firstGap 2 tail = Config.entryRecords
  sorted : tsorted tail = true
  above : ∀ c ∈ tail, 1 < c.1
  orphans : ∀ c ∈ tail, ∃ e, c.2 = some e ∧ e.orphan = true ∧ e.refs = 1 ∧ e.pins = 0 ∧ e.deadlines = [] ∧ e.state = .ready

section
variable {s : State} {a b : Entry} {tail : Tab (Option Entry)}

theorem Crowd.wf (crowd : Crowd tail) : twf none (pairTable a b tail) = true := by
  refine twf_iff.2 ⟨tsorted_cons.2 ⟨?_, tsorted_cons.2 ⟨crowd.above, crowd.sorted⟩⟩, ?_⟩
  · rw [List.forall_mem_cons]
    exact ⟨Nat.one_pos, fun c hc => Nat.lt_trans Nat.one_pos (crowd.above c hc)⟩
  · rw [pairTable, List.forall_mem_cons, List.forall_mem_cons]
    refine ⟨nofun, nofun, fun c hc => ?_⟩
    obtain ⟨e, he, -⟩ := crowd.orphans c hc
    rw [he]
    nofun

theorem terase_above {α : Type} {t : Tab α} {k : Nat} (h : ∀ c ∈ t, k < c.1) : terase t k = t :=
  List.filter_eq_self.2 fun c hc => by simpa using Nat.ne_of_gt (h c hc)

theorem Crowd.above_zero (crowd : Crowd tail) : ∀ c ∈ ((1, some b) :: tail : Tab (Option Entry)), 0 < c.1 := by
  rw [List.forall_mem_cons]
  exact ⟨Nat.one_pos, fun c hc => Nat.lt_trans Nat.one_pos (crowd.above c hc)⟩

theorem tset_zero (crowd : Crowd tail) (x : Entry) : tset none (pairTable a b tail) 0 (some x) = pairTable x b tail := by
  have erased : terase (pairTable a b tail) 0 = (1, some b) :: tail := terase_above crowd.above_zero
  unfold tset
  rw [if_neg nofun, erased]
  rfl

theorem tset_zero_none (crowd : Crowd tail) : tset none (pairTable a b tail) 0 none = (1, some b) :: tail := by
  unfold tset
  rw [if_pos rfl]
  exact terase_above crowd.above_zero

theorem tset_zero_freed (crowd : Crowd tail) (x : Entry) :
    tset none ((1, some b) :: tail : Tab (Option Entry)) 0 (some x) = pairTable x b tail := by
  unfold tset
  rw [if_neg nofun, terase_above crowd.above_zero]
  rfl

theorem tset_one (crowd : Crowd tail) (x : Entry) : tset none (pairTable a b tail) 1 (some x) = pairTable a x tail := by
  have erased : terase (pairTable a b tail) 1 = (0, some a) :: tail :=
    congrArg ((0, some a) :: ·) (terase_above crowd.above)
  have put : tinsert 1 (some x) tail = (1, some x) :: tail := by
    cases tail with
    | nil => rfl
    | cons c t => exact if_pos (crowd.above c (List.mem_cons_self ..))
  unfold tset
  rw [if_neg nofun, erased]
  exact congrArg ((0, some a) :: ·) put

theorem entriesWhere_cons {id : Nat} {e : Entry} {t : Tab (Option Entry)} (f : Entry → Bool)
    (hs : s.store.entries = (id, some e) :: t) :
    entriesWhere s f = (if f e then [(id, e)] else []) ++ entriesWhere (s.withEntries t) f := by
  unfold entriesWhere State.withEntries
  rw [hs]
  cases h : f e <;> simp [h]

/-- The entries that pass a test no orphan in use passes. -/
theorem entriesWhere_pair (crowd : Crowd tail) (hs : s.store.entries = pairTable a b tail) {f : Entry → Bool}
    (hf : ∀ e : Entry, e.orphan = true → e.refs = 1 → e.pins = 0 → e.state = .ready → f e = false) :
    entriesWhere s f = (if f a then [(0, a)] else []) ++ if f b then [(1, b)] else [] := by
  have rest : entriesWhere (s.withEntries tail) f = [] := by
    refine List.filterMap_eq_nil_iff.2 fun c hc => ?_
    obtain ⟨e, he, orphan, refs, pins, -, ready⟩ := crowd.orphans c hc
    rw [he]
    simp [hf e orphan refs pins ready]
  have second : entriesWhere (s.withEntries ((1, some b) :: tail)) f = (if f b then [(1, b)] else []) ++ [] := by
    rw [entriesWhere_cons f (s := s.withEntries ((1, some b) :: tail)) rfl, ← rest]
    rfl
  rw [entriesWhere_cons f hs, second, List.append_nil]

/-- An orphan is not found (R116). -/
theorem findEntry_pair (crowd : Crowd tail) (hs : s.store.entries = pairTable a b tail) (k : Key) :
    findEntry s k = if a.findable && a.key == k then some 0 else if b.findable && b.key == k then some 1 else none := by
  have rest : tail.find? (fun c => (c.2.map (fun e => e.findable && e.key == k)).getD false) = none := by
    refine List.find?_eq_none.2 fun c hc => ?_
    obtain ⟨e, he, orphan, -⟩ := crowd.orphans c hc
    simp [he, Entry.findable, orphan]
  unfold findEntry
  rw [hs, pairTable, List.find?_cons, List.find?_cons, rest]
  dsimp only [Option.map, Option.getD]
  cases a.findable && a.key == k <;> cases b.findable && b.key == k <;> rfl

theorem entry_zero (hs : s.store.entries = pairTable a b tail) : s.entry 0 = some a := by
  unfold State.entry
  rw [hs]
  rfl

theorem entry_one (hs : s.store.entries = pairTable a b tail) : s.entry 1 = some b := by
  unfold State.entry
  rw [hs]
  rfl

/-! ## Pins on such a table -/

/-- Overload stands where it is off and pages are to spare (R122). -/
theorem overloadJudged_of_calm (calm : s.store.overload = false) (free : Config.overloadEnter ≤ s.store.freePages) :
    overloadJudged s = s := by
  have stands : judgeOverload s = none := judgeOverload_eq_none.2 (by
    rw [calm, if_neg (by decide)]
    exact Nat.le_trans free (Nat.le_add_right _ _))
  unfold overloadJudged
  rw [stands]
  rfl

/-- An entry under one pin more. -/
def Entry.pinned (e : Entry) : Entry := { e with pins := e.pins + 1 }

theorem addPin_zero (crowd : Crowd tail) (hs : s.store.entries = pairTable a b tail) (calm : s.store.overload = false)
    (free : Config.overloadEnter ≤ s.store.freePages) : addPin s 0 = s.withEntries (pairTable a.pinned b tail) := by
  have written : s.modEntry 0 Entry.pinned = s.withEntries (pairTable a.pinned b tail) := by
    unfold State.modEntry State.setEntry
    rw [entry_zero hs, hs]
    exact congrArg s.withEntries (tset_zero crowd a.pinned)
  exact (congrArg overloadJudged written).trans (overloadJudged_of_calm calm free)

theorem addPin_one (crowd : Crowd tail) (hs : s.store.entries = pairTable a b tail) (calm : s.store.overload = false)
    (free : Config.overloadEnter ≤ s.store.freePages) : addPin s 1 = s.withEntries (pairTable a b.pinned tail) := by
  have written : s.modEntry 1 Entry.pinned = s.withEntries (pairTable a b.pinned tail) := by
    unfold State.modEntry State.setEntry
    rw [entry_one hs, hs]
    exact congrArg s.withEntries (tset_one crowd b.pinned)
  exact (congrArg overloadJudged written).trans (overloadJudged_of_calm calm free)

/-- With every record in use, the one entry on the reclaim list gives its record to a new entry (R109, R114). -/
theorem findOrAdmit_crowded (crowd : Crowd tail) (hs : s.store.entries = pairTable a b tail) {k : Key} (v : Nat) (l : Location)
    (absent : findEntry s k = none) (ha : a.reclaimable = true) (empty : a.pages = []) (hb : b.reclaimable = false) :
    findOrAdmit s k v l =
      (bumpArrivals (s.withEntries (pairTable (newEntry s k v l s.store.arrivals) b tail)), 0) := by
  have gap : firstGap 0 s.store.entries = Config.entryRecords := by
    rw [hs]
    exact crowd.full
  have head : reclaimHead s = some (0, a) := by
    unfold reclaimHead
    rw [entriesWhere_pair crowd hs fun e orphan refs _ _ => by simp [Entry.reclaimable, Entry.unused, refs], ha, hb]
    rfl
  have freed : freeEntry s 0 = s.withEntries ((1, some b) :: tail) := by
    unfold freeEntry returnPages
    rw [entry_zero hs]
    dsimp only
    unfold State.setEntry
    dsimp only
    rw [hs, tset_zero crowd, tset_zero_none crowd, empty]
    rfl
  have record : freeRecord s = (s.withEntries ((1, some b) :: tail), 0) := by
    unfold freeRecord reclaimOne
    dsimp only
    rw [gap, if_neg (Nat.lt_irrefl _), head]
    dsimp only
    rw [freed]
    rfl
  unfold findOrAdmit
  rw [absent, record]
  dsimp only
  unfold State.setEntry State.withEntries
  dsimp only
  rw [tset_zero_freed crowd]

end

end Sys2Proof.Machine

/-! SUPPORT. `PinsSetAndDropped` refuted: the new entry of one frame takes the record of the entry found for the next (R114,
R119). -/

namespace Sys2Proof.Machine

/-! ## A part whose entry records are all in use -/

/-- A READY entry without pages for frame 1 of the clip. -/
def twinEntry (pins refs : Nat) (orphan : Bool) : Entry :=
  { key := ⟨5, 1, 1⟩, state := .ready, granted := false, orphan := orphan, bytes := 2, short := false, lines := some 1
    pageNeed := 1, pages := [], pieces := 0, outstanding := 0, recordNeed := 0, allotment := 0, refs := refs, pins := pins
    transfers := 0, deadlines := [], arrival := 0, stamp := 0, volume := none, loc := ⟨0, 2⟩, place := [], cleared := false }

/-- Group 0 of clip 1: frame 0 too small for the view, frame 1 large enough. -/
def twinSlot : GroupSlot := .listed 5 [some ⟨0, 1⟩, some ⟨0, 2⟩]

/-- One line of two bytes. -/
def twinShape : Shape := ⟨0, 2, 0, 1, 1, 0, 2⟩

/-- The Frame Map with that group alone. -/
def twinMap : FrameMap :=
  { State.reset.map with clips := [(1, ⟨.live, 0, 0, 0, 2, false, [(0, ⟨[(0, twinSlot)], 1⟩)], 1, 0⟩)], serial := some 6 }

/-- Two findable entries of one key, one without a user and one pinned, before records that `tail` lists: a state the second law
does not shut out (R106, R108). -/
def twins (tail : Tab (Option Entry)) : State :=
  { State.reset with
    port := { Port.initial with reqSize := 64, ansSize := 64, state := .enabled, hand := .reading }
    map := twinMap
    views := [(0, View.whole), (1, ⟨true, twinShape, 0⟩)]
    store := { State.reset.store with entries := pairTable (twinEntry 0 0 false) (twinEntry 1 0 false) tail } }

/-- PIN_SET over both frames of the clip. -/
def twinArgs : PinSetArgs := ⟨1, 1, 0, 2⟩

/-- Every record from number 2 on holds an orphan that a list entry still uses. -/
def orphanRecords : Tab (Option Entry) := (List.range' 2 65534).map fun id => (id, some (twinEntry 0 1 true))

theorem firstGap_range' {α : Type} (v : α) (n k : Nat) : firstGap k ((List.range' k n).map fun id => (id, v)) = k + n := by
  induction n generalizing k with
  | zero => rfl
  | succ n ih =>
    rw [List.range'_succ, List.map_cons]
    unfold firstGap
    rw [if_neg (Nat.lt_irrefl _), if_pos rfl, ih]
    omega

theorem tsorted_range' {α : Type} (v : α) (n k : Nat) : tsorted ((List.range' k n).map fun id => (id, v)) = true := by
  induction n generalizing k with
  | zero => rfl
  | succ n ih =>
    rw [List.range'_succ, List.map_cons]
    refine tsorted_cons.2 ⟨fun c hc => ?_, ih (k + 1)⟩
    obtain ⟨id, mem, rfl⟩ := List.mem_map.1 hc
    exact (List.mem_range'_1.1 mem).1

theorem orphanRecords_crowd : Crowd orphanRecords where
  full := firstGap_range' _ 65534 2
  sorted := tsorted_range' _ 65534 2
  above c hc := by
    obtain ⟨id, mem, rfl⟩ := List.mem_map.1 hc
    exact (List.mem_range'_1.1 mem).1
  orphans c hc := by
    obtain ⟨id, -, rfl⟩ := List.mem_map.1 hc
    exact ⟨_, rfl, rfl, rfl, rfl, rfl, rfl⟩

section
variable {tail : Tab (Option Entry)}

/-! ## What the statement asks of it -/

theorem twins_tables (crowd : Crowd tail) : TablesHeld (twins tail) :=
  ⟨rfl, rfl, rfl, rfl, crowd.wf, rfl, rfl, rfl, rfl, rfl, rfl⟩

/-- The only group slot of that part is group 0 of clip 1. -/
theorem twins_slot (h g : Nat) : ((twins tail).clip h).slot g = if h = 1 ∧ g = 0 then twinSlot else .empty := by
  by_cases h1 : h = 1
  · subst h1
    have clip : (twins tail).clip 1 = ⟨.live, 0, 0, 0, 2, false, [(0, ⟨[(0, twinSlot)], 1⟩)], 1, 0⟩ := rfl
    rw [clip]
    by_cases p : 0 = g / 256
    · by_cases q : 0 = g % 256
      · have : g = 0 := by omega
        subst this
        rfl
      · have ne : g ≠ 0 := by omega
        simp [Clip.slot, Clip.page, DirPage.slot, tget, ← p, q, ne]
    · have ne : g ≠ 0 := by omega
      simp [Clip.slot, Clip.page, DirPage.slot, DirPage.absent, tget, p, ne]
  · have free : (twins tail).clip h = Clip.initial := by
      unfold State.clip twins twinMap
      simp [tget, Ne.symm h1]
    rw [free, if_neg fun e => h1 e.1]
    rfl

theorem twins_entry (crowd : Crowd tail) {id : Nat} {e : Entry} (he : (twins tail).entry id = some e) (found : e.findable = true) :
    e = twinEntry 0 0 false ∨ e = twinEntry 1 0 false := by
  have listed : (id, some e) ∈ pairTable (twinEntry 0 0 false) (twinEntry 1 0 false) tail := by
    have mem := mem_of_tget_ne (d := (none : Option Entry)) (t := (twins tail).store.entries) (k := id)
    unfold State.entry at he
    rw [he] at mem
    exact mem nofun
  unfold pairTable at listed
  rcases List.mem_cons.1 listed with first | listed
  · cases first; exact .inl rfl
  · rcases List.mem_cons.1 listed with second | rest
    · cases second; exact .inr rfl
    · obtain ⟨x, hx, orphan, -⟩ := crowd.orphans _ rest
      cases hx
      simp [Entry.findable, orphan] at found

theorem twins_serials (crowd : Crowd tail) : SerialsHeld (twins tail) := by
  have nonempty : ∀ {h g}, ((twins tail).clip h).slot g ≠ .empty → h = 1 ∧ g = 0 := fun {h g} ne => by
    rw [twins_slot] at ne
    by_contra other
    exact ne (if_neg other)
  have slot : ((twins tail).clip 1).slot 0 = twinSlot := rfl
  have need : framePages (twins tail) 1 2 = 1 := by
    have view : ((twins tail).view 1).shape = twinShape := rfl
    unfold framePages
    rw [view]
    rfl
  refine ⟨fun h g k j ne same => ?_, fun h g ne => ?_, fun n hn => ?_, fun h g free => ?_, nofun, fun id e he found => ?_⟩
  · obtain ⟨rfl, rfl⟩ := nonempty ne
    refine nonempty fun empty => ?_
    rw [empty, slot] at same
    cases same
  · obtain ⟨rfl, rfl⟩ := nonempty ne
    rw [slot]
    exact ⟨by decide, fun n hn => by cases hn; decide⟩
  · cases hn
    decide
  · by_contra ne
    obtain ⟨rfl, rfl⟩ := nonempty ne
    cases free
  · rcases twins_entry crowd he found with rfl | rfl <;> exact ⟨need.symm, 1, 0, rfl⟩

/-! ## The PIN_SET -/

/-- The frames the PIN_SET would cover: the first needs no page, the second one. -/
theorem pinWant_twins {s : State} (map : s.map = twinMap) (view : (s.view 1).shape = twinShape) :
    pinWant s 1 1 0 = some (⟨5, 0, 1⟩, ⟨0, 1⟩, 0) ∧ pinWant s 1 1 1 = some (⟨5, 1, 1⟩, ⟨0, 2⟩, 1) := by
  unfold pinWant lookup framePages State.clip
  rw [map, view]
  exact ⟨rfl, rfl⟩

theorem newWants_twins (crowd : Crowd tail) :
    newWants (twins tail) 1 1 0 2 = [(⟨5, 0, 1⟩, ⟨0, 1⟩, 0), (⟨5, 1, 1⟩, ⟨0, 2⟩, 1)] := by
  obtain ⟨first, second⟩ := pinWant_twins (s := twins tail) rfl rfl
  have absent : alreadyPinned (twins tail) ⟨5, 0, 1⟩ = false := by
    unfold alreadyPinned
    rw [findEntry_pair crowd rfl]
    rfl
  have unpinned : alreadyPinned (twins tail) ⟨5, 1, 1⟩ = false := by
    unfold alreadyPinned
    rw [findEntry_pair crowd rfl]
    rfl
  have range : List.range 2 = [0, 1] := rfl
  unfold newWants
  simp [range, first, second, absent, unpinned]

theorem addedPages_twins (crowd : Crowd tail) : addedPages (twins tail) twinArgs = 1 := by
  have wants : newWants (twins tail) twinArgs.clip twinArgs.view twinArgs.first twinArgs.count = _ := newWants_twins crowd
  unfold addedPages
  rw [wants]
  rfl

theorem pinnedPages_twins (crowd : Crowd tail) : pinnedPages (twins tail) = 1 := by
  unfold pinnedPages
  rw [entriesWhere_pair crowd rfl fun e _ _ pins _ => by simp [pins]]
  rfl

theorem pinnedEntries_twins (crowd : Crowd tail) : pinnedEntries (twins tail) = 1 := by
  unfold pinnedEntries
  rw [entriesWhere_pair crowd rfl fun e _ _ pins _ => by simp [pins]]
  rfl

/-- A frame that a pin wants is found or admitted, and pinned (R119). -/
theorem coverFrame_of_want {s : State} {p f : Nat} {k : Key} {l : Location} {n : Nat}
    (want : pinWant s (s.pin p).clip (s.pin p).view f = some (k, l, n)) : ∃ q, coverFrame s p f =
      (addPin (findOrAdmit s k (s.clip (s.pin p).clip).volume l).1 (findOrAdmit s k (s.clip (s.pin p).clip).volume l).2).setPin p
        { s.pin p with covered := q } := by
  unfold coverFrame
  dsimp only
  rw [want]
  exact ⟨_, rfl⟩

theorem newEntry_outside {s : State} {k : Key} {v : Nat} {l : Location} {n : Nat}
    (h : sizeOf k.view (s.view k.view).shape l.size = none) : (newEntry s k v l n).key = k ∧ (newEntry s k v l n).pageNeed = 0 ∧
      (newEntry s k v l n).deadlines = [] ∧ (newEntry s k v l n).pins = 0 ∧ (newEntry s k v l n).waiting = false := by
  unfold newEntry
  dsimp only
  rw [h]
  exact ⟨rfl, rfl, rfl, rfl, rfl⟩

/-- The part once the request has been taken and its pin made, before the pin covers a frame. -/
def twinsTaken (tail : Tab (Option Entry)) : State :=
  (claimView (beginTake (twins tail)) 1).setPin 0 ⟨.full, 1, 1, 0, 2, 2, []⟩

/-- The first frame takes the record of the entry without a user, which was the one found for the second (R114). -/
theorem coverFrame_first (crowd : Crowd tail) : ∃ n covered, (n.key = ⟨5, 0, 1⟩ ∧ n.pageNeed = 0 ∧ n.deadlines = [] ∧ n.pins = 1 ∧
    n.waiting = false) ∧ coverFrame (twinsTaken tail) 0 0 =
      (bumpArrivals ((twinsTaken tail).withEntries (pairTable n (twinEntry 1 0 false) tail))).setPin 0
        ⟨.full, 1, 1, 0, 2, 2, covered⟩ := by
  have entries : (twinsTaken tail).store.entries = pairTable (twinEntry 0 0 false) (twinEntry 1 0 false) tail := rfl
  have absent : findEntry (twinsTaken tail) ⟨5, 0, 1⟩ = none := findEntry_pair crowd entries _
  obtain ⟨q, covers⟩ := coverFrame_of_want (s := twinsTaken tail) (p := 0) (f := 0) (pinWant_twins rfl rfl).1
  rw [findOrAdmit_crowded crowd entries _ _ absent rfl rfl rfl] at covers
  obtain ⟨key, need, deadlines, pins, waiting⟩ := newEntry_outside (s := twinsTaken tail) (k := ⟨5, 0, 1⟩)
    (v := ((twinsTaken tail).clip ((twinsTaken tail).pin 0).clip).volume) (l := ⟨0, 1⟩) (n := (twinsTaken tail).store.arrivals) rfl
  generalize newEntry (twinsTaken tail) ⟨5, 0, 1⟩ ((twinsTaken tail).clip ((twinsTaken tail).pin 0).clip).volume ⟨0, 1⟩
    (twinsTaken tail).store.arrivals = n at *
  refine ⟨n.pinned, q, ⟨key, need, deadlines, congrArg (· + 1) pins, waiting⟩, covers.trans ?_⟩
  dsimp only
  rw [addPin_zero crowd (a := n) (b := twinEntry 1 0 false) rfl rfl
    (show Config.overloadEnter ≤ Config.storePages by decide)]
  rfl

/-- The second frame finds the entry that is pinned already: the pinned page total stays at one page. -/
theorem setPinRange_twins (crowd : Crowd tail) : ∃ (n : Entry) (x : Store),
    (n.pageNeed = 0 ∧ n.deadlines = [] ∧ n.pins = 1 ∧ n.waiting = false) ∧
      (x.entries = pairTable n (twinEntry 2 0 false) tail ∧ x.overload = false ∧ x.freePages = Config.storePages) ∧
      setPinRange (beginTake (twins tail)) twinArgs 0 = { twinsTaken tail with store := x } := by
  obtain ⟨n, covered, ⟨key, need, deadlines, pins, waiting⟩, first⟩ := coverFrame_first crowd
  generalize hu : (bumpArrivals ((twinsTaken tail).withEntries (pairTable n (twinEntry 1 0 false) tail))).setPin 0
    ⟨.full, 1, 1, 0, 2, 2, covered⟩ = u at first
  have entries : u.store.entries = pairTable n (twinEntry 1 0 false) tail := by rw [← hu]; rfl
  have calm : u.store.overload = false := by rw [← hu]; rfl
  have free : u.store.freePages = Config.storePages := by rw [← hu]; rfl
  have found : findEntry u ⟨5, 1, 1⟩ = some 1 := by
    have other : (n.findable && n.key == ⟨5, 1, 1⟩) = false := by
      rw [key]
      exact Bool.and_false _
    rw [findEntry_pair crowd entries, other]
    rfl
  have want : pinWant u (u.pin 0).clip (u.pin 0).view 1 = some (⟨5, 1, 1⟩, ⟨0, 2⟩, 1) := by
    rw [← hu]
    exact (pinWant_twins rfl rfl).2
  obtain ⟨q, second⟩ := coverFrame_of_want want
  have stands : ∀ v l, findOrAdmit u ⟨5, 1, 1⟩ v l = (u, 1) := fun v l => by
    unfold findOrAdmit
    rw [found]
  rw [stands] at second
  dsimp only at second
  rw [addPin_one crowd entries calm (by rw [free]; decide)] at second
  refine ⟨n, (coverFrame u 0 1).store, ⟨need, deadlines, pins, waiting⟩, ?_, ?_⟩
  · rw [second]
    exact ⟨rfl, calm, free⟩
  · show coverFrame (coverFrame (twinsTaken tail) 0 0) 0 1 = _
    rw [first, second, ← hu]
    rfl

/-- The request is offered. -/
theorem twins_offered : Offered (twins tail) 0 (.pinSet twinArgs) := by
  have port : canTake (twins tail) 80 = canTake (twins []) 80 := rfl
  exact ⟨rfl, port.trans (by decide)⟩

/-- The answer's total is one page, the pinned page total before with the pages added is two. -/
theorem doPinSet_twins (crowd : Crowd tail) (q : Ticket) : ∃ (x : State) (covered : Nat), AtRest x ∧ x.out = [] ∧
    doPinSet twinArgs q (beginTake (twins tail)) = x ∧
      x.handed = [⟨q, .ok, false, 0, [item1 0, item2 covered, item4 1, item4 1]⟩] := by
  obtain ⟨n, x, ⟨need, deadlines, pins, waiting⟩, ⟨entries, calm, free⟩, set⟩ := setPinRange_twins crowd
  have added : addedPages (beginTake (twins tail)) twinArgs = 1 := addedPages_twins crowd
  have fits : pinFits (beginTake (twins tail)) twinArgs = true := by
    have pages : pinnedPages (beginTake (twins tail)) = 1 := pinnedPages_twins crowd
    have count : pinnedEntries (beginTake (twins tail)) = 1 := pinnedEntries_twins crowd
    have wants : newWants (beginTake (twins tail)) twinArgs.clip twinArgs.view twinArgs.first twinArgs.count = _ :=
      newWants_twins crowd
    unfold pinFits
    rw [pages, count, added, wants]
    rfl
  have total : pinnedPages { twinsTaken tail with store := x } = 1 := by
    unfold pinnedPages
    rw [entriesWhere_pair crowd entries fun e _ _ pins _ => by simp [pins], pins]
    simp [sumOf, need]
    rfl
  have act : doPinSet twinArgs q (beginTake (twins tail)) = ({ twinsTaken tail with store := x } : State).reply q .ok
      [item1 0, item2 (({ twinsTaken tail with store := x } : State).pin 0).covered.length, item4 1, item4 1] := by
    have pin : freePin (beginTake (twins tail)) = some 0 := rfl
    unfold doPinSet
    rw [pin]
    dsimp only
    rw [fits, set, added, total]
    rfl
  refine ⟨_, _, ?_, rfl, act, rfl⟩
  refine (atRest_of_idle (s := { twinsTaken tail with store := x }) rfl rfl rfl rfl calm
    (show _ ≤ x.freePages by rw [free]; decide) fun c hc e he => ?_).ofPort _ _
  change c ∈ x.entries at hc
  rw [entries, pairTable, List.mem_cons, List.mem_cons] at hc
  rcases hc with rfl | rfl | hc
  · cases he
    exact ⟨deadlines, waiting⟩
  · cases he
    exact ⟨rfl, rfl⟩
  · obtain ⟨y, hy, -, -, -, none, ready⟩ := crowd.orphans c hc
    rw [hy] at he
    cases he
    exact ⟨none, by simp [Entry.waiting, ready]⟩

end

/-- Refutes O52: under the second law (`SerialsHeld`) two findable entries may share a key. With every entry record in use, the
new entry of the range's first frame takes the record of the one without a user, which was found for the second frame and counted
among the pages added; the second frame then finds the one pinned already. The answer's total is 1, not 2. -/
theorem not_pinsSetAndDropped : ¬ Obligations.PinsSetAndDropped := by
  rintro ⟨set, -⟩
  have crowd := orphanRecords_crowd
  generalize orphanRecords = tail at crowd
  have added := addedPages_twins crowd
  have pages := pinnedPages_twins crowd
  have count := pinnedEntries_twins crowd
  have wants : newWants (twins tail) twinArgs.clip twinArgs.view twinArgs.first twinArgs.count = _ := newWants_twins crowd
  obtain ⟨t, ht, -, -, -, -, -, -, -, -, -, -, total, law, a, status, written⟩ := set (twins tail) 0 twinArgs 0 twins_offered
    (by decide) (by decide) rfl (by decide) (by decide) (by decide) (by decide) rfl (by omega) rfl
    (by rw [pages, added]; decide) (by rw [count, wants]; decide)
  have two : total = 2 := (law (twins_tables crowd) (twins_serials crowd)).trans (by rw [pages, added])
  obtain ⟨x, covered, rest, out, act, handed⟩ := doPinSet_twins crowd (ticketOf (twins tail) 80 0)
  have event : t = endEvent (takeBase (twins tail) (.pinSet twinArgs)) x := by
    have taken := exec_offered (twins_offered (tail := tail))
    rw [show exec (rowOf 0 (.pinSet twinArgs)) (twins tail) = .next t from ht] at taken
    rw [← act]
    exact Host.Outcome.next.inj taken
  have mem : Output.answer a ⟨80, 0, .ok, status, false, 0, _⟩ ∈ t.out := written
  rw [event] at mem
  obtain ⟨w, answer⟩ := endEvent_answer _ rest handed mem (by rw [out]; nofun)
  have items := congrArg Answer.items answer
  simp [Handed.answer, item4, two] at items

end Sys2Proof.Machine
